-- ==== Sys2Proof/Word.lean ====
section
/-!
DEFINITION. The value types of the core: bytes, words, bus offsets (00_scope.md R11, 20_memory.md R71), and the two
values of the direction bit D (30_encoding.md R110).
-/

namespace Sys2Proof

/-- An unsigned 8-bit value (R11). -/
abbrev Byte := BitVec 8

/-- An unsigned 32-bit value (R11). -/
abbrev Word := BitVec 32

/-- A byte offset in the 4096-byte register space (R71). -/
abbrev Offset := BitVec 12

/-- The direction D of a key schedule (R19, R110): `encrypt` is D = 0, `decrypt` is D = 1. -/
inductive Direction
  | encrypt
  | decrypt
deriving DecidableEq, Repr

end Sys2Proof
end

