-- ==== Sys2Proof/Syntax.lean ====
section
/-!
DEFINITION. The commands of the core: one constructor for each row of spec/opcode_table.json (30_encoding.md R112).
A command word has no register fields and no immediates (R111): the direction bit of KEYEXP is the only operand field.
-/

namespace Sys2Proof

/-- The twelve commands of R112, in the table's order. -/
inductive Instr
  | nop                     -- 44_command_control.md R262
  | keyexp (d : Direction)  -- 41_key_schedule.md R180
  | crypt                   -- 43_block_transform.md R240
  | kclr                    -- 44_command_control.md R263
  | eclr                    -- 44_command_control.md R264
  | tau                     -- 41_key_schedule.md R185
  | lkey                    -- 41_key_schedule.md R186
  | tkey                    -- 41_key_schedule.md R187
  | ldif                    -- 42_round_function.md R210
  | tslow                   -- 42_round_function.md R211
  | tfast                   -- 42_round_function.md R212
  | tbl                     -- 42_round_function.md R213
deriving DecidableEq, Repr

/-- The primitive commands: those whose operand is ARG and whose result is RES (10_state.md R41). -/
def Instr.isPrimitive : Instr → Bool
  | .tau | .lkey | .tkey | .ldif | .tslow | .tfast | .tbl => true
  | .nop | .keyexp _ | .crypt | .kclr | .eclr => false

end Sys2Proof
end

