-- ==== Sys2Proof/Decode.lean ====
section
/-!
DEFINITION. Decoding of command words (44_command_control.md R261, 30_encoding.md R110, R112, R114) and their encoding.
Decoding is total on 32-bit words; every word that matches no row is rejected, with the reason by name.
-/

namespace Sys2Proof

/-- Why a word is illegal: the three classes R114 lists. All of them raise ILLEGAL_CMD (R265); which of the three a word
is reported under is the model's own naming and no state shows it (log 15). -/
inductive DecodeError
  /-- A nonzero RSV bit, c[31:9]. -/
  | reservedBits
  /-- D = 1 on a word whose OP is not KEYEXP's. -/
  | directionBit
  /-- An OP value no row has. -/
  | unassignedOp
deriving DecidableEq, Repr

/-- A row of R112: a word `c` is selected by it when `(c and mask) = pattern` (R261). `instr` is the command with D = 0. -/
structure OpcodeRow where
  pattern : Word
  mask : Word
  instr : Instr
deriving DecidableEq, Repr

/-- The match and mask of every row of R112, in the order a decoder tests them. -/
def opcodeRows : List OpcodeRow :=
  [ ⟨0x00000000, 0xFFFFFFFF, .nop⟩,
    ⟨0x00000001, 0xFFFFFEFF, .keyexp .encrypt⟩,
    ⟨0x00000002, 0xFFFFFFFF, .crypt⟩,
    ⟨0x00000003, 0xFFFFFFFF, .kclr⟩,
    ⟨0x00000004, 0xFFFFFFFF, .eclr⟩,
    ⟨0x00000010, 0xFFFFFFFF, .tau⟩,
    ⟨0x00000011, 0xFFFFFFFF, .lkey⟩,
    ⟨0x00000012, 0xFFFFFFFF, .tkey⟩,
    ⟨0x00000020, 0xFFFFFFFF, .ldif⟩,
    ⟨0x00000021, 0xFFFFFFFF, .tslow⟩,
    ⟨0x00000022, 0xFFFFFFFF, .tfast⟩,
    ⟨0x00000023, 0xFFFFFFFF, .tbl⟩ ]

/-- R261's selection test of one row. -/
def OpcodeRow.selects (r : OpcodeRow) (c : Word) : Bool := c &&& r.mask == r.pattern

/-- The field OP = c[7:0] (R110). -/
def opField (c : Word) : Byte := c.extractLsb' 0 8

/-- The field D = c[8] (R110). -/
def dField (c : Word) : Direction := if c.getLsbD 8 then .decrypt else .encrypt

/-- The field RSV = c[31:9] (R110). -/
def rsvField (c : Word) : BitVec 23 := c.extractLsb' 9 23

/-- "its rule is performed with D = c[8]" (R261): only KEYEXP has the field. -/
def Instr.withDirection : Instr → Direction → Instr
  | .keyexp _, d => .keyexp d
  | i, _ => i

/-- The class of R114 an unmatched word falls in. -/
def rejectReason (c : Word) : DecodeError :=
  if rsvField c ≠ 0 then .reservedBits
  else if dField c = .decrypt then .directionBit
  else .unassignedOp

/-- R261: the row that selects `c`, performed with D = c[8]; an unmatched word is illegal. -/
def decode (c : Word) : Except DecodeError Instr :=
  match opcodeRows.find? (fun r => r.selects c) with
  | some r => .ok (r.instr.withDirection (dField c))
  | none => .error (rejectReason c)

/-- The OP of a command (R112). -/
def opcode : Instr → Byte
  | .nop => 0x00
  | .keyexp _ => 0x01
  | .crypt => 0x02
  | .kclr => 0x03
  | .eclr => 0x04
  | .tau => 0x10
  | .lkey => 0x11
  | .tkey => 0x12
  | .ldif => 0x20
  | .tslow => 0x21
  | .tfast => 0x22
  | .tbl => 0x23

/-- The D bit of a command's word: KEYEXP's direction, and 0 for every other OP (R110). -/
def directionBit : Instr → BitVec 1
  | .keyexp .decrypt => 1
  | .keyexp .encrypt => 0
  | .nop | .crypt | .kclr | .eclr | .tau | .lkey | .tkey | .ldif | .tslow | .tfast | .tbl => 0

/-- The word of a command: RSV = 0, then D, then OP (R110). This is `enc(m)` of R119. -/
def encode (i : Instr) : Word := (0 : BitVec 23) ++ directionBit i ++ opcode i

/-- The command the decoder reads from a word given as the opcode table numbers its bits: bit 0 the least significant,
and every bit at or above `nbits` 0 (log 16). A value that needs more than 32 bits is no command word (R115). -/
def decodeTableWord (nbits w : Nat) : Option Instr :=
  let c := w % 2 ^ nbits
  if c < 2 ^ 32 then (decode (BitVec.ofNat 32 c)).toOption else none

/-! Each command's word, written out from R112, decodes to it. -/

theorem decode_word_nop : decode 0x00000000 = .ok .nop := by decide
theorem decode_word_keyexp_encrypt : decode 0x00000001 = .ok (.keyexp .encrypt) := by decide
theorem decode_word_keyexp_decrypt : decode 0x00000101 = .ok (.keyexp .decrypt) := by decide
theorem decode_word_crypt : decode 0x00000002 = .ok .crypt := by decide
theorem decode_word_kclr : decode 0x00000003 = .ok .kclr := by decide
theorem decode_word_eclr : decode 0x00000004 = .ok .eclr := by decide
theorem decode_word_tau : decode 0x00000010 = .ok .tau := by decide
theorem decode_word_lkey : decode 0x00000011 = .ok .lkey := by decide
theorem decode_word_tkey : decode 0x00000012 = .ok .tkey := by decide
theorem decode_word_ldif : decode 0x00000020 = .ok .ldif := by decide
theorem decode_word_tslow : decode 0x00000021 = .ok .tslow := by decide
theorem decode_word_tfast : decode 0x00000022 = .ok .tfast := by decide
theorem decode_word_tbl : decode 0x00000023 = .ok .tbl := by decide

end Sys2Proof
end

