-- ==== Sys2Proof/Machine/Bits.lean ====
section
/-!
DEFINITION. Splitting words into bytes, packing bytes into words, rotation (00_scope.md R11-R13, R20).
Byte positions count from the most significant byte (R12, 90_conflicts.md C1).
-/

namespace Sys2Proof.Machine

/-- `byte_k(w)` of R12, for k = 0..3: byte 0 is w[31:24]. -/
def byteAt (w : Word) (k : Nat) : Byte := w.extractLsb' (24 - 8 * k) 8

def byte0 (w : Word) : Byte := byteAt w 0
def byte1 (w : Word) : Byte := byteAt w 1
def byte2 (w : Word) : Byte := byteAt w 2
def byte3 (w : Word) : Byte := byteAt w 3

/-- `word(b0,b1,b2,b3) = b0 || b1 || b2 || b3` (R12). -/
def ofBytes (b0 b1 b2 b3 : Byte) : Word := b0 ++ b1 ++ b2 ++ b3

/-- 32-bit circular left rotation by `n` places, 0 <= n < 32 (R11). -/
def rotl (w : Word) (n : Nat) : Word := w.rotateLeft n

/-- `rotr(b, n) = rotl(b, (32-n) mod 32)` (R11). -/
def rotr (w : Word) (n : Nat) : Word := rotl w ((32 - n) % 32)

/-- `be32(s, k)`: the big-endian word at byte `k` of a byte sequence (R13). -/
def be32 {n : Nat} (s : Vector Byte n) (k : Nat) (h : k + 3 < n := by omega) : Word :=
  ofBytes s[k] s[k + 1] s[k + 2] s[k + 3]

/-- `unbe32(w)`: the four bytes of a word, most significant first (R13). -/
def unbe32 (w : Word) : Vector Byte 4 := #v[byte0 w, byte1 w, byte2 w, byte3 w]

end Sys2Proof.Machine
end

