-- ==== Sys2Proof/Config.lean ====
section
/-!
DEFINITION. What one instance of the core fixes (00_scope.md R10), and the free values of the model.
-/

namespace Sys2Proof

/-- The parameters of one core that a rule depends on: BUF_BYTES, the size of the buffer memory (R10).
BASE_ADDR and the latencies are parameters no rule depends on (logs 11 and 13). -/
structure Config where
  bufBytes : Nat
deriving DecidableEq, Repr

/-- The values R10 allows: "any multiple of 4 with 16 <= BUF_BYTES <= 3840". -/
abbrev Config.legal (c : Config) : Prop :=
  c.bufBytes % 4 = 0 ∧ 16 ≤ c.bufBytes ∧ c.bufBytes ≤ 3840

/-- R10's default: BUF_BYTES = 256. -/
def Config.default : Config := { bufBytes := 256 }

/-- The value a command gets when it reads an UNWRITTEN byte of BUF (20_memory.md R74): FREE, nothing constrains it.
The first argument is the running count `State.freeIndex` of the reads that met such a byte, the second the byte's place
in BUF. DESIGN CHOICE, safe: log 5. -/
opaque Config.freeByte : Nat → Nat → Byte

end Sys2Proof
end

