-- ==== Sys2Proof/Machine/HostBus.lean ====
section
/-!
DEFINITION. What the host can do to the core and what it gets back (20_memory.md R80, 70_reset_and_hazards.md R310, R319,
R320), as data.
-/

namespace Sys2Proof.Machine

/-- The width of a bus transaction "in bytes (1, 2 or 4)" (R80; log 18). -/
inductive Width
  | one
  | two
  | four
deriving DecidableEq, Repr

/-- A host bus transaction (R80). The offset is the one the host bus has reduced to the core's region (R71). -/
inductive Transaction
  | read (offset : Offset) (width : Width)
  | write (offset : Offset) (width : Width) (data : Word)
deriving DecidableEq, Repr

/-- One event in the total order of what reaches the core (R92, R310). -/
inductive HostEvent
  /-- A bus transaction, answered before the next event. -/
  | bus (t : Transaction)
  /-- Reset, between two transactions. -/
  | reset
  /-- Reset asserted while the command of a write of `c` to CMD is in progress: the command is abandoned (R310). -/
  | resetDuring (c : Word)
deriving DecidableEq, Repr

/-- What a transaction is answered with. -/
inductive Response
  /-- `ok`, of a write (R80). -/
  | ok
  /-- `ok(data)`, of a read (R80). -/
  | okData (w : Word)
  /-- `busError` (R81, R83). -/
  | busError
  /-- A read of a BUF window word with an UNWRITTEN byte: the third outcome, which gives no data (R74, 60_exceptions.md
  R285; log 6). -/
  | modelFault
  /-- A write whose command reset abandoned: "no response, or a response the platform defines" (R310; log 8). -/
  | abandoned
deriving DecidableEq, Repr

/-- The registers of 10_state.md R32 other than RK[i] and the BUF window. -/
inductive CtlReg
  | id
  | status
  | cmd
  | bufsize
  | keyOff
  | keyLen
  | inOff
  | outOff
  | arg
  | res
deriving DecidableEq, Repr

/-- A register as a host program names it (30_encoding.md R118). -/
inductive HostReg
  | ctl (r : CtlReg)
  | rk (i : Nat)           -- RK[i], 0 <= i <= 31
  | buf (k : Nat)          -- BUF[k], k a multiple of 4, k < BUF_BYTES
  | raw (offset : Offset)  -- imm12
deriving DecidableEq, Repr

/-- A statement of a host program: R118's WR and RD (with the data an RD expects, where it states any) and the
pseudo-instructions of R119. Labels and comments carry no transaction and are left to the text (log 17). -/
inductive HostStmt
  | wr (r : HostReg) (data : Word)
  | rd (r : HostReg) (expected : Option Word)
  | cmd (m : Instr)
  | wrbuf (k : Nat) (h : Vector Byte 16)
  | rdbuf (k : Nat)
  | setkey (k : Word)
  | setio (i o : Word)
  | prim (m : Instr) (a : Word)
deriving DecidableEq, Repr

end Sys2Proof.Machine
end

