-- ==== Sys2Proof/Machine/State.lean ====
section
/-!
DEFINITION. The state of the machine (10_state.md R48, with the model fault mark of 60_exceptions.md R285), its reset value
(70_reset_and_hazards.md R311), and the reasons a step can stop.
-/

namespace Sys2Proof.Machine

/-- The error codes of STATUS.ECODE, by name (60_exceptions.md R281). The codes 7-15 are "never written" and have no name
(log 9). `State.ecode` is 4 bits wide: `ErrorCode.bits` gives them. -/
inductive ErrorCode
  | ok           -- 0
  | keyLength    -- 1
  | keyBounds    -- 2
  | inBounds     -- 3
  | outBounds    -- 4
  | noKey        -- 5
  | illegalCmd   -- 6
deriving DecidableEq, Repr

/-- A memory: the written bytes, by address; an address that is not listed is UNWRITTEN (20_memory.md R74). Its canonical
form is `Memory.wf`. -/
abbrev Memory := List Host.Cell

/-- The state of the core and of the host's side of its bus. -/
structure State where
  /-- BUF_BYTES of this core, its parameter; no step writes it (00_scope.md R10; log 1). -/
  cfg : Config
  /-- RK[0..31] (R40). -/
  rk : Vector Word 32
  /-- STATUS.KV (R34). -/
  kv : Bool
  /-- STATUS.DIR (R34). -/
  dir : Direction
  /-- STATUS.ERR (R34). -/
  err : Bool
  /-- STATUS.ECODE (R34, R281). -/
  ecode : ErrorCode
  /-- KEY_OFF (R36). -/
  keyOff : Word
  /-- KEY_LEN (R37). -/
  keyLen : Word
  /-- IN_OFF (R38). -/
  inOff : Word
  /-- OUT_OFF (R39). -/
  outOff : Word
  /-- ARG (R41). -/
  arg : Word
  /-- RES (R42). -/
  res : Word
  /-- BUF (R47, 20_memory.md R72, R74). -/
  buf : Memory
  /-- The model fault mark: permanent, never cleared (60_exceptions.md R285; log 4). -/
  modelFault : Bool
  /-- The MODEL's own: how many reads of UNWRITTEN bytes have taken free values (log 5). -/
  freeIndex : Nat
  /-- The MODEL's own: what the host does next, oldest first (log 2). -/
  pending : List HostEvent
  /-- The MODEL's own: the responses given so far, oldest first (R319; log 3). -/
  responses : List Response
deriving DecidableEq, Repr

/-- The core stops with a fault: NEVER. The spec gives every command, every bus access and reset an effect in every state,
and its "model fault" is a mark in State (R285, log 4), so this type has no constructor. Nothing raises it: safe. -/
inductive Fault
deriving DecidableEq, Repr

/-- The reasons the model refuses an instruction. -/
inductive Refusal
  /-- An instruction without a meaning yet. Raised by arms of `exec` only, and now by none: safe. -/
  | notModelled (mnemonic : String)
deriving DecidableEq, Repr

/-- The state right after reset of a core with the parameters `c`, the host idle (R311): every register and flag 0, RK
zeroised, every BUF byte UNWRITTEN. -/
def State.resetWith (c : Config) : State where
  cfg := c
  rk := Vector.replicate 32 0
  kv := false
  dir := .encrypt
  err := false
  ecode := .ok
  keyOff := 0
  keyLen := 0
  inOff := 0
  outOff := 0
  arg := 0
  res := 0
  buf := []
  modelFault := false
  freeIndex := 0
  pending := []
  responses := []

/-- The state right after reset of a core with the default BUF_BYTES = 256 (R10, R311). -/
def State.reset : State := State.resetWith Config.default

end Sys2Proof.Machine
end

