-- ==== Sys2Proof/Machine/Ops.lean ====
section
/-!
DEFINITION. The named operations over memory and registers, the recording of an error (the core's whole exception
mechanism, 60_exceptions.md R280, R282, R287), the model fault mark (R285), and reset (70_reset_and_hazards.md R310).
-/

namespace Sys2Proof.Machine

/-! ## Memory -/

/-- The byte at an address, or `none` where it is UNWRITTEN (20_memory.md R74). -/
def Memory.read : Memory → Nat → Option Byte
  | [], _ => none
  | (k, v) :: m, a => if a = k then some v else Memory.read m a

/-- Writes one byte: the byte at `a` becomes defined (R74). Keeps the canonical form. -/
def Memory.write : Memory → Nat → Byte → Memory
  | [], a, b => [(a, b)]
  | (k, v) :: m, a, b =>
    if a < k then (a, b) :: (k, v) :: m
    else if a = k then (a, b) :: m
    else (k, v) :: Memory.write m a b

/-- Writes a byte sequence to the addresses from `a` on. -/
def Memory.writeBytes : Memory → Nat → List Byte → Memory
  | m, _, [] => m
  | m, a, b :: bs => Memory.writeBytes (Memory.write m a b) (a + 1) bs

/-- The canonical form: addresses strictly rising, so that equal memories are equal lists. An unlisted address reads as
no byte at all, so no listed byte can equal it. -/
abbrev Memory.wf (m : Memory) : Prop := m.Pairwise (fun p q => p.1 < q.1)

/-! ## Errors and success -/

/-- `raise Error(code)`: sets ERR, writes ECODE, and changes nothing else (60_exceptions.md R282). -/
def State.raiseError (s : State) (code : ErrorCode) : State := { s with err := true, ecode := code }

/-- The end of a successful command: ECODE = 0, ERR unchanged (10_state.md R44). -/
def State.succeed (s : State) : State := { s with ecode := .ok }

/-- Clearing the error record, the only return from an error short of reset (60_exceptions.md R288, 44 R264). -/
def State.clearErrors (s : State) : State := { s with err := false, ecode := .ok }

/-- The model fault mark is set; nothing clears it (60_exceptions.md R285). -/
def State.markModelFault (s : State) : State := { s with modelFault := true }

/-! ## Registers -/

/-- A successful key expansion: RK replaced whole, KV = 1, DIR = D (41_key_schedule.md R180). -/
def State.installKey (s : State) (rk : Vector Word 32) (d : Direction) : State := { s with rk := rk, kv := true, dir := d }

/-- RK zeroised, KV = 0, DIR = 0 (44_command_control.md R263). -/
def State.clearKey (s : State) : State := { s with rk := Vector.replicate 32 0, kv := false, dir := .encrypt }

/-- A primitive command's result goes to RES (10_state.md R42). -/
def State.setRes (s : State) (w : Word) : State := { s with res := w }

/-- A bus write of a register of R32 other than CMD: an RW register takes the word, an RO register ignores it
(20_memory.md R84). CMD has no storage; what a write to it does is `State.busWrite`'s. -/
def State.writeCtl (s : State) (r : CtlReg) (w : Word) : State :=
  match r with
  | .keyOff => { s with keyOff := w }
  | .keyLen => { s with keyLen := w }
  | .inOff => { s with inOff := w }
  | .outOff => { s with outOff := w }
  | .arg => { s with arg := w }
  | .id | .status | .cmd | .bufsize | .res => s

/-- `MemWrite(addr, n, seq)` (00_scope.md R15). -/
def State.memWrite {n : Nat} (s : State) (addr : Nat) (bytes : Vector Byte n) : State :=
  { s with buf := s.buf.writeBytes addr bytes.toList }

/-! ## The host's side -/

/-- A transaction is answered: its response joins the run's responses (70_reset_and_hazards.md R319). -/
def State.respond (s : State) (r : Response) : State := { s with responses := s.responses ++ [r] }

/-- Reset: every piece of the core's state takes its reset value (R310, R311). The model fault mark is never cleared
(60_exceptions.md R285), the parameter does not change, and the host's side of the bus is not the core's (log 7). -/
def State.applyReset (s : State) : State :=
  { State.resetWith s.cfg with
    modelFault := s.modelFault, freeIndex := s.freeIndex, pending := s.pending, responses := s.responses }

/-- What follows a step that answered a next state; a stop stays a stop. -/
def onNext (o : Host.Outcome State Fault Refusal) (f : State → State) : Host.Outcome State Fault Refusal :=
  match o with
  | .next t => .next (f t)
  | .fault r => .fault r
  | .refused r => .refused r

end Sys2Proof.Machine
end

