-- ==== Sys2Proof/Machine/Control.lean ====
section
/-!
DEFINITION. The control commands NOP, KCLR and ECLR (44_command_control.md R262-R264).
-/

namespace Sys2Proof.Machine

/-- NOP: ECODE = 0 and nothing else (R262). -/
def execNop (s : State) : Host.Outcome State Fault Refusal := .next s.succeed

/-- KCLR: RK zeroised, KV = 0, DIR = 0, ECODE = 0 (R263). -/
def execKclr (s : State) : Host.Outcome State Fault Refusal := .next s.clearKey.succeed

/-- ECLR: ERR = 0, ECODE = 0 (R264). -/
def execEclr (s : State) : Host.Outcome State Fault Refusal := .next s.clearErrors

end Sys2Proof.Machine
end

