-- ==== Sys2Proof/Machine/KeySchedule.lean ====
section
/-!
DEFINITION. The key-schedule primitives tau, L', T' and the schedule itself (41_key_schedule.md R170-R177).
-/

namespace Sys2Proof.Machine

/-- τ: S applied to each of the four bytes of a word (R170). -/
def tau (z : Word) : Word := ofBytes (sbox (byte0 z)) (sbox (byte1 z)) (sbox (byte2 z)) (sbox (byte3 z))

/-- L′, the linear diffusion of the key schedule (R172). -/
def lKey (b : Word) : Word := b ^^^ rotl b 13 ^^^ rotl b 23

/-- T′, the mixing function of the key schedule; always computed from S and L′ (R173). -/
def tKey (z : Word) : Word := lKey (tau z)

/-- Steps 1 and 2: `K[j] = MK[j] xor FK[j]` with `MK[j] = be32(key, 4j)`, j = 0..3 (R174, R175). -/
def initialKey (key : Vector Byte 16) : Vector Word 4 :=
  #v[be32 key 0 ^^^ familyKey[0], be32 key 4 ^^^ familyKey[1], be32 key 8 ^^^ familyKey[2], be32 key 12 ^^^ familyKey[3]]

/-- CK[i] for i = 0..31; the schedule uses no other index (R176). -/
def roundConstant (i : Nat) : Word := roundConstants.toList.getD i 0

/-- The four words K[i], K[i+1], K[i+2], K[i+3] of the sequence of R176. -/
def keyWindow (key : Vector Byte 16) : Nat → Vector Word 4
  | 0 => initialKey key
  | i + 1 =>
    let k := keyWindow key i
    #v[k[1], k[2], k[3], k[0] ^^^ tKey (k[1] ^^^ k[2] ^^^ k[3] ^^^ roundConstant i)]

/-- `K[i]` of the sequence K[0..35] (R176). -/
def keyWord (key : Vector Byte 16) (i : Nat) : Word := (keyWindow key i)[0]

/-- The 32 round subkeys in storage order: `RK[i] = (D == 0) ? K[i+4] : K[35-i]` (R177). Irreducible, so that
no proof about a command evaluates the schedule by accident. -/
@[irreducible] def keySchedule (key : Vector Byte 16) (d : Direction) : Vector Word 32 :=
  Vector.ofFn fun i =>
    match d with
    | .encrypt => keyWord key (i + 4)
    | .decrypt => keyWord key (35 - i)

end Sys2Proof.Machine
end

