-- ==== Sys2Proof/Machine/RoundFunction.lean ====
section
/-!
DEFINITION. The round function in its two forms (42_round_function.md R200-R204). Both forms are kept (R204).
-/

namespace Sys2Proof.Machine

/-- L, the linear diffusion of the rounds (R200). -/
def lRound (b : Word) : Word := b ^^^ rotl b 2 ^^^ rotl b 10 ^^^ rotl b 18 ^^^ rotl b 24

/-- The slow, table-free form: it reads S and no other table (R201). -/
def tSlow (a : Word) : Word := lRound (tau a)

/-- The fast, table-driven form: it reads T0..T3 and not S (R202). -/
def tFast (a : Word) : Word :=
  mixTable 0 (byte0 a) ^^^ mixTable 1 (byte1 a) ^^^ mixTable 2 (byte2 a) ^^^ mixTable 3 (byte3 a)

/-- What the build-time Table Generator produces: L of the word with S[b] at byte position j and zeros elsewhere
(40_constants.md R144, R145). The core holds the tables as ROM; this is the rule they are produced by. -/
def generatedEntry (j : BitVec 2) (b : Byte) : Word := lRound ((sbox b).setWidth 32 <<< (24 - 8 * j.toNat))

end Sys2Proof.Machine
end

