-- ==== Sys2Proof/Machine/BlockTransform.lean ====
section
/-!
DEFINITION. The 32-round block transform (43_block_transform.md R230-R233).
-/

namespace Sys2Proof.Machine

/-- Path selection by round index: slow in rounds 0-3 and 28-31, fast in rounds 4-27 (R232). -/
def roundForm (i : Nat) : Word → Word := if i < 4 ∨ 28 ≤ i then tSlow else tFast

/-- `X[j] = be32(in, 4j)`, j = 0..3 (R230). -/
def blockWords (block : Vector Byte 16) : Vector Word 4 := #v[be32 block 0, be32 block 4, be32 block 8, be32 block 12]

/-- Round `i` with the subkey RK[i]: it updates the word X[i mod 4] and leaves the other three (R231). -/
def roundStep (i : Nat) (subkey : Word) (x : Vector Word 4) : Vector Word 4 :=
  let a := x[(i + 1) % 4] ^^^ x[(i + 2) % 4] ^^^ x[(i + 3) % 4] ^^^ subkey
  x.set (i % 4) (x[i % 4] ^^^ roundForm i a) (by omega)

/-- The state after the first `n` rounds, taken in ascending order (R231). -/
def roundsUpTo (rk : Vector Word 32) (x : Vector Word 4) : (n : Nat) → n ≤ 32 → Vector Word 4
  | 0, _ => x
  | n + 1, h => roundStep n rk[n] (roundsUpTo rk x n (by omega))

/-- The output block: X[3], X[2], X[1], X[0] as big-endian words (R233). -/
def outputBlock (x : Vector Word 4) : Vector Byte 16 :=
  unbe32 x[3] ++ unbe32 x[2] ++ unbe32 x[1] ++ unbe32 x[0]

/-- The block transform of a 16-byte block under the subkeys RK[0..31]. It reads nothing else: not DIR (R234), no counter
and no earlier block (R237). Irreducible, so that no proof about a command evaluates the rounds by accident. -/
@[irreducible] def blockTransform (rk : Vector Word 32) (block : Vector Byte 16) : Vector Byte 16 :=
  outputBlock (roundsUpTo rk (blockWords block) 32 (Nat.le_refl 32))

/-- The block transform applied `n` times under one key, each output the next input: the regression check of 40_constants.md
R149 item 3 (95_test_vectors.md, Table V-CR, row 8). -/
def chainedTransform (rk : Vector Word 32) : Nat → Vector Byte 16 → Vector Byte 16
  | 0, block => block
  | n + 1, block => chainedTransform rk n (blockTransform rk block)

end Sys2Proof.Machine
end

