-- ==== Sys2Proof/Machine/Operands.lean ====
section
/-!
DEFINITION. Every operand form of a command: the 16-byte windows of BUF and their bounds check (00_scope.md R14, R15,
20_memory.md R87), and the fields of ARG (30_encoding.md R111, 42_round_function.md R213).
-/

namespace Sys2Proof.Machine

/-- The bounds check `nat(off) + 16 <= BUF_BYTES`, in unbounded naturals (R14, R87). -/
def State.windowFits (s : State) (off : Word) : Bool := decide (off.toNat + 16 ≤ s.cfg.bufBytes)

/-- Whether every byte of BUF[addr .. addr+n) has been written since reset (20_memory.md R74). -/
def State.written (s : State) (addr n : Nat) : Bool := (List.range n).all fun k => (s.buf.read (addr + k)).isSome

/-- The bytes `MemRead(addr, n)` gives (R15): an UNWRITTEN byte gives a free value (R74; log 5). -/
def State.memRead (s : State) (addr n : Nat) : Vector Byte n :=
  Vector.ofFn fun k => (s.buf.read (addr + k)).getD (Config.freeByte s.freeIndex (addr + k))

/-- What a `MemRead(addr, n)` leaves: nothing changes if every byte was written; otherwise the model fault mark is set, and
the next such read takes other free values (R74, 60_exceptions.md R285; logs 4 and 5). -/
def State.afterRead (s : State) (addr n : Nat) : State :=
  if s.written addr n then s else { s.markModelFault with freeIndex := s.freeIndex + 1 }

/-- TBL's table index `j = ARG[9:8]` (R213). -/
def State.tblIndex (s : State) : BitVec 2 := s.arg.extractLsb' 8 2

/-- TBL's byte `b = ARG[7:0]` (R213). -/
def State.tblByte (s : State) : Byte := s.arg.extractLsb' 0 8

end Sys2Proof.Machine
end

