-- ==== Sys2Proof/Machine/CryptCommand.lean ====
section
/-!
DEFINITION. CRYPT (43_block_transform.md R240).
-/

namespace Sys2Proof.Machine

/-- CRYPT (R240): NO_KEY, then IN_BOUNDS, then OUT_BOUNDS, are checked before any write; all 16 input bytes are read before
any output byte is written (20_memory.md R88). -/
def execCrypt (s : State) : Host.Outcome State Fault Refusal :=
  if ¬ s.kv then .next (s.raiseError .noKey)
  else if ¬ s.windowFits s.inOff then .next (s.raiseError .inBounds)
  else if ¬ s.windowFits s.outOff then .next (s.raiseError .outBounds)
  else
    let block := s.memRead s.inOff.toNat 16
    .next (((s.afterRead s.inOff.toNat 16).memWrite s.outOff.toNat (blockTransform s.rk block)).succeed)

end Sys2Proof.Machine
end

