-- ==== Sys2Proof/Machine/KeyCommands.lean ====
section
/-!
DEFINITION. KEYEXP and the primitive commands of the key schedule, TAU, LKEY and TKEY (41_key_schedule.md R180, R185-R187).
-/

namespace Sys2Proof.Machine

/-- KEYEXP (R180): KEY_LENGTH, then KEY_BOUNDS, are checked before any state changes; then the 16 key bytes at KEY_OFF are
expanded into RK in the order D gives. -/
def execKeyexp (d : Direction) (s : State) : Host.Outcome State Fault Refusal :=
  if s.keyLen ≠ 16 then .next (s.raiseError .keyLength)
  else if ¬ s.windowFits s.keyOff then .next (s.raiseError .keyBounds)
  else
    let key := s.memRead s.keyOff.toNat 16
    .next (((s.afterRead s.keyOff.toNat 16).installKey (keySchedule key d) d).succeed)

/-- TAU: RES = τ(ARG) (R185). -/
def execTau (s : State) : Host.Outcome State Fault Refusal := .next (s.setRes (tau s.arg)).succeed

/-- LKEY: RES = L′(ARG) (R186). -/
def execLkey (s : State) : Host.Outcome State Fault Refusal := .next (s.setRes (lKey s.arg)).succeed

/-- TKEY: RES = L′(τ(ARG)) (R187). -/
def execTkey (s : State) : Host.Outcome State Fault Refusal := .next (s.setRes (tKey s.arg)).succeed

end Sys2Proof.Machine
end

