-- ==== Sys2Proof/Machine/RoundCommands.lean ====
section
/-!
DEFINITION. The primitive commands of the round function, LDIF, TSLOW, TFAST and TBL (42_round_function.md R210-R213).
-/

namespace Sys2Proof.Machine

/-- LDIF: RES = L(ARG) (R210). -/
def execLdif (s : State) : Host.Outcome State Fault Refusal := .next (s.setRes (lRound s.arg)).succeed

/-- TSLOW: RES = T_slow(ARG) (R211). -/
def execTslow (s : State) : Host.Outcome State Fault Refusal := .next (s.setRes (tSlow s.arg)).succeed

/-- TFAST: RES = T_fast(ARG) (R212). -/
def execTfast (s : State) : Host.Outcome State Fault Refusal := .next (s.setRes (tFast s.arg)).succeed

/-- TBL: RES = T_j[b] with j = ARG[9:8] and b = ARG[7:0] (R213). -/
def execTbl (s : State) : Host.Outcome State Fault Refusal := .next (s.setRes (mixTable s.tblIndex s.tblByte)).succeed

end Sys2Proof.Machine
end

