-- ==== Sys2Proof/Machine/Dispatch.lean ====
section
/-!
DEFINITION. The command engine: one arm per command, each one direct call of its meaning.
-/

namespace Sys2Proof.Machine

def exec (i : Instr) (s : State) : Host.Outcome State Fault Refusal :=
  match i with
  | .nop => Sys2Proof.Machine.execNop s
  | .keyexp d => Sys2Proof.Machine.execKeyexp d s
  | .crypt => Sys2Proof.Machine.execCrypt s
  | .kclr => Sys2Proof.Machine.execKclr s
  | .eclr => Sys2Proof.Machine.execEclr s
  | .tau => Sys2Proof.Machine.execTau s
  | .lkey => Sys2Proof.Machine.execLkey s
  | .tkey => Sys2Proof.Machine.execTkey s
  | .ldif => Sys2Proof.Machine.execLdif s
  | .tslow => Sys2Proof.Machine.execTslow s
  | .tfast => Sys2Proof.Machine.execTfast s
  | .tbl => Sys2Proof.Machine.execTbl s

end Sys2Proof.Machine
end

