-- ==== Sys2Proof/Machine/Flags.lean ====
section
/-!
DEFINITION. The flags: the STATUS word and the bits of its fields (10_state.md R34, R48). The core has no arithmetic
condition codes (R44); what the commands write to KV, DIR, ERR and ECODE is in Ops.
-/

namespace Sys2Proof.Machine

/-- The four bits of an error code (60_exceptions.md R281). -/
def ErrorCode.bits : ErrorCode → BitVec 4
  | .ok => 0
  | .keyLength => 1
  | .keyBounds => 2
  | .inBounds => 3
  | .outBounds => 4
  | .noKey => 5
  | .illegalCmd => 6

/-- The DIR bit: 0 encrypt, 1 decrypt (R34). -/
def directionFlag : Direction → BitVec 1
  | .encrypt => 0
  | .decrypt => 1

/-- STATUS: `zext_32(ECODE << 4 | ERR << 3 | DIR << 2 | KV << 1 | 0)` (R48). Bit 0 is BUSY, which always reads 0, and
bits 31:8 are reserved and read 0 (R34). -/
def State.statusWord (s : State) : Word :=
  (0 : BitVec 24) ++ s.ecode.bits ++ BitVec.ofBool s.err ++ directionFlag s.dir ++ BitVec.ofBool s.kv ++ (0 : BitVec 1)

end Sys2Proof.Machine
end

