-- ==== Sys2Proof/Machine/RegisterMap.lean ====
section
/-!
DEFINITION. The register map of 10_state.md R32: which offset is which register, and what each reads as.
-/

namespace Sys2Proof.Machine

/-- What stands at an aligned offset that is not reserved. -/
inductive Place
  | ctl (r : CtlReg)
  | rk (i : Fin 32)   -- RK[i]
  | buf (k : Nat)     -- the BUF window word at bytes k .. k+4
deriving DecidableEq, Repr

/-- The offset of a register (R32). -/
def ctlOffset : CtlReg → Offset
  | .id => 0x000
  | .status => 0x004
  | .cmd => 0x008
  | .bufsize => 0x00C
  | .keyOff => 0x010
  | .keyLen => 0x014
  | .inOff => 0x018
  | .outOff => 0x01C
  | .arg => 0x020
  | .res => 0x024

/-- The register at an offset, if one is there. -/
def ctlAt : Nat → Option CtlReg
  | 0x000 => some .id
  | 0x004 => some .status
  | 0x008 => some .cmd
  | 0x00C => some .bufsize
  | 0x010 => some .keyOff
  | 0x014 => some .keyLen
  | 0x018 => some .inOff
  | 0x01C => some .outOff
  | 0x020 => some .arg
  | 0x024 => some .res
  | _ => none

/-- What stands at an aligned offset; `none` at a reserved one (R32, 20_memory.md R83): RK[i] at 0x080 + 4i, and the BUF
window from 0x100 up to 0x100 + BUF_BYTES. -/
def placeAt (c : Config) (offset : Offset) : Option Place :=
  let o := offset.toNat
  if o < 0x080 then (ctlAt o).map Place.ctl
  else if h : o < 0x100 then some (.rk ⟨(o - 0x080) / 4, by omega⟩)
  else if o < 0x100 + c.bufBytes then some (.buf (o - 0x100))
  else none

/-- ID, the constant "SM4", revision 1 (R33). -/
def idValue : Word := 0x534D3401

/-- What a bus read of a register returns (R32, 20_memory.md R82): CMD reads 0 (R35), BUFSIZE reads BUF_BYTES (R43). -/
def State.readCtl (s : State) : CtlReg → Word
  | .id => idValue
  | .status => s.statusWord
  | .cmd => 0
  | .bufsize => BitVec.ofNat 32 s.cfg.bufBytes
  | .keyOff => s.keyOff
  | .keyLen => s.keyLen
  | .inOff => s.inOff
  | .outOff => s.outOff
  | .arg => s.arg
  | .res => s.res

/-- The word of the BUF window at bytes k .. k+4, `be32(BUF, k)`, where all four have been written; `none` where one is
UNWRITTEN (20_memory.md R74, R75). -/
def State.windowWord (s : State) (k : Nat) : Option Word :=
  match s.buf.read k, s.buf.read (k + 1), s.buf.read (k + 2), s.buf.read (k + 3) with
  | some b0, some b1, some b2, some b3 => some (ofBytes b0 b1 b2 b3)
  | _, _, _, _ => none

end Sys2Proof.Machine
end

