-- ==== Sys2Proof/WellFormed.lean ====
section
/-!
DEFINITION. The checks on what a program writes: commands, transactions, registers and statements. (`Config.legal` is the
check on a core's parameters.)
-/

namespace Sys2Proof

/-- Every command is well-formed: a command word has no field but KEYEXP's D, and D takes both its values
(30_encoding.md R110, R111). -/
def Instr.wf : Instr → Bool
  | .nop | .keyexp _ | .crypt | .kclr | .eclr | .tau | .lkey | .tkey | .ldif | .tslow | .tfast | .tbl => true

namespace Machine

/-- The byte offset of a transaction. -/
def Transaction.offset : Transaction → Offset
  | .read o _ => o
  | .write o _ _ => o

/-- The width of a transaction. -/
def Transaction.width : Transaction → Width
  | .read _ w => w
  | .write _ w _ => w

/-- R81's check of width and alignment: a transaction that fails it gets busError. -/
def Transaction.wf (t : Transaction) : Bool := t.width == .four && t.offset.toNat % 4 == 0

/-- R118's conditions on a register's name. -/
def HostReg.wf (c : Config) : HostReg → Bool
  | .ctl _ => true
  | .rk i => decide (i ≤ 31)
  | .buf k => k % 4 == 0 && decide (k < c.bufBytes)
  | .raw _ => true

/-- R118's and R119's conditions on a statement: its registers are well-formed, a buffer block starts at a multiple of 4
and has its four words in BUF, and PRIM names a primitive command. -/
def HostStmt.wf (c : Config) : HostStmt → Bool
  | .wr r _ => r.wf c
  | .rd r _ => r.wf c
  | .cmd m => m.wf
  | .wrbuf k _ => HostReg.wf c (.buf k) && HostReg.wf c (.buf (k + 12))
  | .rdbuf k => HostReg.wf c (.buf k) && HostReg.wf c (.buf (k + 12))
  | .setkey _ => true
  | .setio _ _ => true
  | .prim m _ => m.isPrimitive

end Machine
end Sys2Proof
end

