-- ==== Sys2Proof/Machine/Bus.lean ====
section
/-!
DEFINITION. The host bus (20_memory.md R80-R86), command issue (44_command_control.md R260, R261, R265), and the events the
core sees (70_reset_and_hazards.md R310).
-/

namespace Sys2Proof.Machine

/-- Command issue: decode the word, then perform the command, or record ILLEGAL_CMD (R260, R261, R265). -/
def issueCommand (c : Word) (s : State) : Host.Outcome State Fault Refusal :=
  match decode c with
  | .ok i => exec i s
  | .error _ => .next (s.raiseError .illegalCmd)

/-- A bus read (R81-R83). It changes no state of the core (R82, R85); a read of a window word with an UNWRITTEN byte is a
model fault, which gives no data (R74, 60_exceptions.md R285; log 6). -/
def State.busRead (s : State) (offset : Offset) (width : Width) : State :=
  if ¬ (Transaction.read offset width).wf then s.respond .busError
  else
    match placeAt s.cfg offset with
    | none => s.respond .busError
    | some (.ctl r) => s.respond (.okData (s.readCtl r))
    | some (.rk i) => s.respond (.okData s.rk[i])
    | some (.buf k) =>
      match s.windowWord k with
      | some w => s.respond (.okData w)
      | none => s.markModelFault.respond .modelFault

/-- A bus write (R81, R83, R84): a write to CMD issues the command and returns ok once it is done, whatever its outcome
(R260, 60_exceptions.md R284); a window word is stored big-endian (R75); a write to a read-only register is ignored. -/
def State.busWrite (s : State) (offset : Offset) (width : Width) (w : Word) : Host.Outcome State Fault Refusal :=
  if ¬ (Transaction.write offset width w).wf then .next (s.respond .busError)
  else
    match placeAt s.cfg offset with
    | none => .next (s.respond .busError)
    | some (.ctl .cmd) => onNext (issueCommand w s) (fun t => t.respond .ok)
    | some (.ctl r) => .next ((s.writeCtl r w).respond .ok)
    | some (.rk _) => .next (s.respond .ok)
    | some (.buf k) => .next ((s.memWrite k (unbe32 w)).respond .ok)

/-- One event in the total order of what reaches the core (R92, R310). A command that reset abandons leaves nothing behind
but the record that its write got no response of the core's (R310; log 8). -/
def hostEvent (e : HostEvent) (s : State) : Host.Outcome State Fault Refusal :=
  match e with
  | .bus (.read offset width) => .next (s.busRead offset width)
  | .bus (.write offset width w) => s.busWrite offset width w
  | .reset => .next s.applyReset
  | .resetDuring _ => .next (s.applyReset.respond .abandoned)

/-- The core takes the host's next event (00_scope.md R17, 20_memory.md R92). It never acts on its own
(44_command_control.md R266): with nothing pending it is idle and holds its state (60_exceptions.md R295). -/
def takeEvent (s : State) : Host.Outcome State Fault Refusal :=
  match s.pending with
  | [] => .next s
  | e :: rest => hostEvent e { s with pending := rest }

/-- The host's write of a command word to CMD (10_state.md R35). -/
def cmdWrite (c : Word) : HostEvent := .bus (.write (ctlOffset .cmd) .four c)

/-- `s` with `e` as the very next event, before those that were pending. -/
def State.present (s : State) (e : HostEvent) : State := { s with pending := e :: s.pending }

end Sys2Proof.Machine
end

