-- ==== Sys2Proof/Machine/Step.lean ====
section
/-!
DEFINITION. One step of the machine: the next event of the host's (00_scope.md R17, 20_memory.md R92).
-/

namespace Sys2Proof.Machine

/-- One step: the core takes the host's next event, and holds its state when there is none. -/
def step (s : State) : Host.Outcome State Fault Refusal := takeEvent s

/-- `s` with the host about to write to CMD the word the opcode table numbers as `w` (bits at or above `nbits` 0): the core
fetches nothing (10_state.md R31), a command runs because the host writes it (log 2). -/
def State.withFetchWord (s : State) (nbits w : Nat) : State := s.present (cmdWrite (BitVec.ofNat 32 (w % 2 ^ nbits)))

end Sys2Proof.Machine
end

