-- ==== Sys2Proof/Machine/SboxAlgebra.lean ====
section
/-!
DEFINITION. The algebraic form of the S-box that 40_constants.md R141 gives as a check on the table. The core computes
nothing this way ("S is a table"); the definitions are for the statement of R141 only.
-/

namespace Sys2Proof.Machine

/-- Multiplication by x in GF(2^8) with the reduction polynomial 0x1F5 (R141). -/
def gfTimesX (a : Byte) : Byte := (a <<< 1) ^^^ (if a.getLsbD 7 then 0xF5 else 0)

/-- The product of `a` and the polynomial whose coefficients, lowest first, are the given bits. -/
def gfMulBits : List Bool → Byte → Byte
  | [], _ => 0
  | b :: bs, a => (if b then a else 0) ^^^ gfMulBits bs (gfTimesX a)

/-- Multiplication in GF(2^8) with the reduction polynomial 0x1F5 (R141). -/
def gfMul (a b : Byte) : Byte := gfMulBits ((List.range 8).map b.getLsbD) a

/-- The product of the squares of `a` taken `n` times over: a^2 · a^4 · … · a^(2^n). -/
def gfSquares : Nat → Byte → Byte
  | 0, _ => 1
  | n + 1, a => gfMul (gfMul a a) (gfSquares n (gfMul a a))

/-- I, the multiplicative inverse with I(0) = 0: a^254 (R141). -/
def gfInverse (a : Byte) : Byte := gfSquares 7 a

/-- The parity of a byte's bits. -/
def parity (a : Byte) : Bool := (List.range 8).foldl (fun p i => p ^^ a.getLsbD i) false

/-- A·x: output bit 7-r is the parity of (0xD3 rotated right by r) AND x (R141). The S-box is A·I(A·x ⊕ C) ⊕ C with C = 0xD3. -/
def affineMatrix (x : Byte) : Byte :=
  (List.range 8).foldl (fun y r => (y <<< 1) ||| (BitVec.ofBool (parity ((0xD3#8).rotateRight r &&& x))).setWidth 8) 0

end Sys2Proof.Machine
end

