-- ==== Sys2Proof/Machine/HostProgram.lean ====
section
/-!
DEFINITION. Host programs: the offsets of their registers (30_encoding.md R118) and the exact expansion of their
statements into bus transactions (R119).
-/

namespace Sys2Proof.Machine

/-- The offset a register's name resolves to (R118): RK[i] is 0x080 + 4i, BUF[k] is 0x100 + k. -/
def hostRegOffset : HostReg → Offset
  | .ctl r => ctlOffset r
  | .rk i => BitVec.ofNat 12 (0x080 + 4 * i)
  | .buf k => BitVec.ofNat 12 (0x100 + k)
  | .raw o => o

/-- `WR reg, imm32` is `Write(off(reg), 4, imm32)` (R118). -/
def wrTransaction (r : HostReg) (w : Word) : Transaction := .write (hostRegOffset r) .four w

/-- `RD reg` is `Read(off(reg), 4)` (R118). -/
def rdTransaction (r : HostReg) : Transaction := .read (hostRegOffset r) .four

/-- The transactions of a statement (R118, R119). -/
def expandStmt : HostStmt → List Transaction
  | .wr r w => [wrTransaction r w]
  | .rd r _ => [rdTransaction r]
  | .cmd m => [wrTransaction (.ctl .cmd) (encode m)]
  | .wrbuf k h =>
    [ wrTransaction (.buf k) (be32 h 0), wrTransaction (.buf (k + 4)) (be32 h 4),
      wrTransaction (.buf (k + 8)) (be32 h 8), wrTransaction (.buf (k + 12)) (be32 h 12) ]
  | .rdbuf k =>
    [ rdTransaction (.buf k), rdTransaction (.buf (k + 4)), rdTransaction (.buf (k + 8)), rdTransaction (.buf (k + 12)) ]
  | .setkey k => [wrTransaction (.ctl .keyOff) k, wrTransaction (.ctl .keyLen) 0x00000010]
  | .setio i o => [wrTransaction (.ctl .inOff) i, wrTransaction (.ctl .outOff) o]
  | .prim m a => [wrTransaction (.ctl .arg) a, wrTransaction (.ctl .cmd) (encode m), rdTransaction (.ctl .res)]

/-- The transactions of a program, one statement after the other: the host language has no branches (R118). -/
def expandProgram (p : List HostStmt) : List Transaction := p.flatMap expandStmt

/-- What an RD statement states of its response with `=>` (R118); one entry for each transaction of a statement. -/
def expectedResponses : HostStmt → List (Option Response)
  | .rd _ expected => [expected.map Response.okData]
  | st => (expandStmt st).map fun _ => none

/-- Whether the responses of a program are the ones its statements expect. -/
def meetsExpectations (p : List HostStmt) (rs : List Response) : Bool :=
  let es := p.flatMap expectedResponses
  es.length == rs.length && (es.zip rs).all fun er => er.1.all fun e => e == er.2

end Sys2Proof.Machine
end

