-- ==== Sys2Proof/Safety.lean ====
section
/-!
DEFINITION. What counts as a safe run, in the terms claims use: runs and their results (70_reset_and_hazards.md R319), the
premise "no model fault" (60_exceptions.md R285), and the invariant of the machine's state.
-/

namespace Sys2Proof.Machine

/-- The four parts of a run's result (R319). -/
structure RunResult where
  responses : List Response
  final : State
  modelFault : Bool
  abandoned : Bool
deriving DecidableEq, Repr

/-- The result a state reached by a run shows. -/
def State.result (s : State) : RunResult where
  responses := s.responses
  final := s
  modelFault := s.modelFault
  abandoned := s.responses.contains .abandoned

/-- The state with a program's transactions as what the host does next (R118). -/
def State.load (s : State) (p : List HostStmt) : State :=
  { s with pending := s.pending ++ (expandProgram p).map HostEvent.bus }

/-- A run: one step for each pending event. It ends after the last transaction's response (R319). -/
def State.run (s : State) : Host.Outcome State Fault Refusal := core.run s.pending.length s

/-- "a claim about a program takes 'no model fault' as a premise" (R285). -/
abbrev State.noModelFault (s : State) : Prop := s.modelFault = false

/-- The memory BUF: canonical, and nothing outside BUF[0 .. BUF_BYTES) (20_memory.md R72). -/
structure State.BufInv (s : State) : Prop where
  canonical : s.buf.wf
  inRange : ∀ p ∈ s.buf, p.1 < s.cfg.bufBytes

/-- The engine instance: with KV = 1, RK holds the schedule of some key in the order DIR says (10_state.md R34, R40);
with KV = 0, RK is zero and DIR is 0 (reset and KCLR are the only ways there). -/
structure State.KeyInv (s : State) : Prop where
  keyed : s.kv = true → ∃ key : Vector Byte 16, s.rk = keySchedule key s.dir
  cleared : s.kv = false → s.rk = Vector.replicate 32 0 ∧ s.dir = .encrypt

/-- The error record: a nonzero ECODE comes with ERR = 1 (60_exceptions.md R282, R288), and NO_KEY is the last result only
while KV = 0 (90_conflicts.md, on R262's example). -/
structure State.ErrorInv (s : State) : Prop where
  sticky : s.ecode ≠ .ok → s.err = true
  noKey : s.ecode = .noKey → s.kv = false

/-- The invariant of the machine: the parameters are legal (00_scope.md R10) and the three parts above hold. -/
structure State.Inv (s : State) : Prop where
  legal : s.cfg.legal
  buf : s.BufInv
  key : s.KeyInv
  errors : s.ErrorInv

end Sys2Proof.Machine
end

