-- ==== Sys2Proof/Certificates/Slice0/Obligations.lean ====
section
/-!
DEFINITION. The statements for the provers, from the numbered rules of spec/. First the words the statements share, then one
definition per statement.
-/

namespace Sys2Proof.Machine

/-! ## Words the statements share -/

/-- BUF holds the bytes `v` from `a` on, all of them written. -/
def HoldsBytes {n : Nat} (s : State) (a : Nat) (v : Vector Byte n) : Prop := ∀ k : Fin n, s.buf.read (a + k) = some v[k]

/-- The state after `raise Error(code)` (60_exceptions.md R282), written out. -/
def withError (s : State) (code : ErrorCode) : State := { s with err := true, ecode := code }

/-- A 16-byte window at `off` lies in BUF (00_scope.md R14). -/
def Fits (s : State) (off : Word) : Prop := off.toNat + 16 ≤ s.cfg.bufBytes

/-- K is the key-schedule sequence of `key` (41_key_schedule.md R174-R176). -/
def KeySequence (key : Vector Byte 16) (K : Nat → Word) : Prop :=
  (∀ j : Fin 4, K j = be32 key (4 * j) ^^^ familyKey[j]) ∧
  ∀ i : Fin 32, K (i + 4) = K i ^^^ tKey (K (i + 1) ^^^ K (i + 2) ^^^ K (i + 3) ^^^ roundConstants[i])

/-- RK holds the sequence K in the order of direction `d` (R177). -/
def StoredInOrder (d : Direction) (K : Nat → Word) (rk : Vector Word 32) : Prop :=
  ∀ i : Fin 32, rk[i] = if d = .encrypt then K (i + 4) else K (35 - i)

/-- X is the sequence of block states of the 32 rounds under `rk`, the form of each round chosen by its index
(43_block_transform.md R230-R232). -/
def RoundSequence (rk : Vector Word 32) (block : Vector Byte 16) (X : Nat → Vector Word 4) : Prop :=
  (∀ j : Fin 4, (X 0)[j] = be32 block (4 * j)) ∧
  ∀ i : Fin 32,
    (∀ j : Fin 4, j.val ≠ i % 4 → (X (i + 1))[j] = (X i)[j]) ∧
    (X (i + 1))[i.val % 4] = (X i)[i.val % 4] ^^^
      (let a := (X i)[(i.val + 1) % 4] ^^^ (X i)[(i.val + 2) % 4] ^^^ (X i)[(i.val + 3) % 4] ^^^ rk[i]
       if i.val < 4 ∨ 28 ≤ i.val then lRound (tau a)
       else mixTable 0 (byte0 a) ^^^ mixTable 1 (byte1 a) ^^^ mixTable 2 (byte2 a) ^^^ mixTable 3 (byte3 a))

/-- The standard key and block of 40 R149: 0123456789ABCDEFFEDCBA9876543210. -/
def standardBlock : Vector Byte 16 :=
  #v[0x01, 0x23, 0x45, 0x67, 0x89, 0xAB, 0xCD, 0xEF, 0xFE, 0xDC, 0xBA, 0x98, 0x76, 0x54, 0x32, 0x10]

/-- The four words of a block, in order, as big-endian bytes (00_scope.md R13). -/
def wordsToBlock (w0 w1 w2 w3 : Word) : Vector Byte 16 := unbe32 w0 ++ unbe32 w1 ++ unbe32 w2 ++ unbe32 w3

/-- KEYEXP passes its checks and reads the 16 written bytes `key` (41_key_schedule.md R180). -/
def KeyReady (s : State) (key : Vector Byte 16) : Prop :=
  s.keyLen = 16 ∧ Fits s s.keyOff ∧ HoldsBytes s s.keyOff.toNat key

/-- CRYPT passes its checks and reads the 16 written bytes `block` (43_block_transform.md R240). -/
def BlockReady (s : State) (block : Vector Byte 16) : Prop :=
  s.kv = true ∧ Fits s s.inOff ∧ Fits s s.outOff ∧ HoldsBytes s s.inOff.toNat block

/-- CRYPT performed `n` times, one after the other. -/
def repeatCrypt : Nat → State → Host.Outcome State Fault Refusal
  | 0, s => .next s
  | n + 1, s =>
    match exec .crypt s with
    | .next t => repeatCrypt n t
    | .fault r => .fault r
    | .refused r => .refused r

/-- The step that takes the event `e` answers `r` and changes nothing else of the core. -/
def Answers (s : State) (e : HostEvent) (r : Response) : Prop :=
  ∀ rest, step { s with pending := e :: rest } = .next { s with pending := rest, responses := s.responses ++ [r] }

/-- The step that takes the write `e` answers ok and leaves the core as in `t`. -/
def AnswersOkAs (s : State) (e : HostEvent) (t : State) : Prop :=
  ∀ rest, step { s with pending := e :: rest } = .next { t with pending := rest, responses := s.responses ++ [.ok] }

/-- An aligned 32-bit read. -/
def readWord (o : Offset) : HostEvent := .bus (.read o .four)

/-- An aligned 32-bit write. -/
def writeWord (o : Offset) (w : Word) : HostEvent := .bus (.write o .four w)

/-- The reserved offsets (20_memory.md R83). -/
def Reserved (s : State) (o : Offset) : Prop :=
  (0x028 ≤ o.toNat ∧ o.toNat < 0x080) ∨ (0x100 ≤ o.toNat ∧ 0x100 + s.cfg.bufBytes ≤ o.toNat)

/-- The next event is the host's write of the command `i` to CMD. -/
def NextCommand (s : State) (i : Instr) : Prop := ∃ rest, s.pending = cmdWrite (encode i) :: rest

/-- The next event is a reset, between transactions or during a command. -/
def NextReset (s : State) : Prop := ∃ rest, s.pending = .reset :: rest ∨ ∃ c, s.pending = .resetDuring c :: rest

/-- A word no command has, in the classes of 30_encoding.md R114: an OP value not listed, a nonzero RSV bit, or D = 1 on an
OP other than KEYEXP's. -/
def IllegalWord (c : Word) : Prop :=
  rsvField c ≠ 0 ∨ (dField c = .decrypt ∧ opField c ≠ 0x01) ∨
  opField c ∉ [0x00, 0x01, 0x02, 0x03, 0x04, 0x10, 0x11, 0x12, 0x20, 0x21, 0x22, 0x23]

end Sys2Proof.Machine

open Sys2Proof Sys2Proof.Machine

/-! ## Encoding and dispatch -/

/-- 44 R261 with the rows of 30 R112: over all 2^32 words, a word decodes to a command exactly when it is its word. -/
def Obligations.DecodeAgreesWithEncode : Prop := ∀ (c : Word) (i : Instr), decode c = .ok i ↔ encode i = c

/-- 30 R112: a few words, written out from the opcode map (a sanity statement). -/
def Obligations.OpcodeMapWordsDecode : Prop :=
  decode 0x00000000 = .ok .nop ∧ decode 0x00000001 = .ok (.keyexp .encrypt) ∧ decode 0x00000101 = .ok (.keyexp .decrypt) ∧
  decode 0x00000002 = .ok .crypt ∧ decode 0x00000012 = .ok .tkey ∧ decode 0x00000023 = .ok .tbl

/-- 30 R114, 44 R265: a word is illegal exactly when it falls in one of R114's classes, and then its write records
ILLEGAL_CMD and changes nothing else. -/
def Obligations.IllegalWordsRecordIllegalCmd : Prop :=
  (∀ c, IllegalWord c ↔ ∀ i, encode i ≠ c) ∧
  (∀ c s, IllegalWord c → AnswersOkAs s (cmdWrite c) (withError s .illegalCmd)) ∧
  IllegalWord 0x00000100 ∧ IllegalWord 0x00000201 ∧ IllegalWord 0x00000005 ∧ IllegalWord 0xFFFFFFFF ∧
  IllegalWord 0x000000FF ∧ ErrorCode.illegalCmd.bits = 6

/-- 44 R260, R261: a step that takes a CMD write of a word that decodes runs the command on the state with that event
taken, and answers ok; so does the step that `withFetchWord` prepares. -/
def Obligations.StepRunsDecodedCommand : Prop :=
  (∀ s rest c i, s.pending = cmdWrite c :: rest → decode c = .ok i →
    step s = onNext (exec i { s with pending := rest }) (fun t => { t with responses := t.responses ++ [.ok] })) ∧
  (∀ s nbits w i, nbits ≤ 32 → decodeTableWord nbits w = some i →
    step (s.withFetchWord nbits w) = onNext (exec i s) (fun t => { t with responses := t.responses ++ [.ok] }))

/-- 60 R295, 44 R266: with no host event the core holds its state. -/
def Obligations.IdleCoreHoldsState : Prop := ∀ s : State, s.pending = [] → step s = .next s

/-- 60 R291, 92 D21: every step answers a next state: no command, bus access or reset stops the machine. That a read of
UNWRITTEN bytes goes on too is the model's choice (log 4). -/
def Obligations.EveryStepCompletes : Prop := ∀ s : State, ∃ t, step s = .next t

/-! ## Control commands -/

/-- 44 R262. -/
def Obligations.NopWritesOnlyEcode : Prop :=
  encode .nop = 0x00000000 ∧ (∀ s, exec .nop s = .next { s with ecode := .ok }) ∧
  (∀ s, s.statusWord = 0x0000003A → ∃ t, exec .nop s = .next t ∧ t.statusWord = 0x0000000A)

/-- 44 R263. -/
def Obligations.KclrEndsKeyLifetime : Prop :=
  encode .kclr = 0x00000003 ∧
  (∀ s, exec .kclr s = .next { s with rk := Vector.replicate 32 0, kv := false, dir := .encrypt, ecode := .ok }) ∧
  (∀ s t, exec .kclr s = .next t → exec .crypt t = .next (withError t .noKey))

/-- 44 R264. -/
def Obligations.EclrClearsErrorRecord : Prop :=
  encode .eclr = 0x00000004 ∧ (∀ s, exec .eclr s = .next { s with err := false, ecode := .ok }) ∧
  (∀ s, s.statusWord = 0x0000001A → ∃ t, exec .eclr s = .next t ∧ t.statusWord = 0x00000002)

/-! ## Primitive commands -/

/-- 41 R185, with τ as R170 gives it. -/
def Obligations.TauSubstitutesBytes : Prop :=
  encode .tau = 0x00000010 ∧
  (∀ s, exec .tau s = .next { s with
      res := ofBytes (sbox (byte0 s.arg)) (sbox (byte1 s.arg)) (sbox (byte2 s.arg)) (sbox (byte3 s.arg)), ecode := .ok }) ∧
  tau 0x00000000 = 0xD6D6D6D6 ∧ tau 0xFFFFFFFF = 0x48484848 ∧ tau 0x01234567 = 0x90F473A2

/-- 41 R186, with L′ as R172 gives it. -/
def Obligations.LkeyDiffusesArg : Prop :=
  encode .lkey = 0x00000011 ∧
  (∀ s, exec .lkey s = .next { s with res := s.arg ^^^ rotl s.arg 13 ^^^ rotl s.arg 23, ecode := .ok }) ∧
  lKey 0x00000000 = 0x00000000 ∧ lKey 0xFFFFFFFF = 0xFFFFFFFF ∧ lKey 0x00000001 = 0x00802001 ∧
  lKey 0x80000000 = 0x80401000 ∧ lKey 0x01234567 = 0xDA0F34E1

/-- 41 R187. -/
def Obligations.TkeyMixesArg : Prop :=
  encode .tkey = 0x00000012 ∧
  (∀ s, exec .tkey s = .next { s with res := tau s.arg ^^^ rotl (tau s.arg) 13 ^^^ rotl (tau s.arg) 23, ecode := .ok }) ∧
  tKey 0x00000000 = 0x67676767 ∧ tKey 0xFFFFFFFF = 0x65656565 ∧ tKey 0x01234567 = 0xCFC85B85

/-- 42 R210, with L as R200 gives it. -/
def Obligations.LdifDiffusesArg : Prop :=
  encode .ldif = 0x00000020 ∧
  (∀ s, exec .ldif s = .next { s with
      res := s.arg ^^^ rotl s.arg 2 ^^^ rotl s.arg 10 ^^^ rotl s.arg 18 ^^^ rotl s.arg 24, ecode := .ok }) ∧
  lRound 0x00000000 = 0x00000000 ∧ lRound 0xFFFFFFFF = 0xFFFFFFFF ∧ lRound 0x00000001 = 0x01040405 ∧
  lRound 0x80000000 = 0x80820202 ∧ lRound 0x01234567 = 0xFA26EB37

/-- 42 R211. -/
def Obligations.TslowMixesArg : Prop :=
  encode .tslow = 0x00000021 ∧
  (∀ s, exec .tslow s = .next { s with res := lRound (tau s.arg), ecode := .ok }) ∧
  tSlow 0x00000000 = 0x5B5B5B5B ∧ lRound 0xD6D6D6D6 = 0x5B5B5B5B ∧ tSlow 0xFFFFFFFF = 0x21212121 ∧
  tSlow 0x80000000 = 0x9767ABAB ∧ tSlow 0x00000001 = 0x1C424205 ∧ tSlow 0x01234567 = 0x6EF180C9

/-- 42 R212: the table-driven form, with the same results as TSLOW for every ARG. -/
def Obligations.TfastMixesArg : Prop :=
  encode .tfast = 0x00000022 ∧
  (∀ s, exec .tfast s = .next { s with
      res := mixTable 0 (byte0 s.arg) ^^^ mixTable 1 (byte1 s.arg) ^^^ mixTable 2 (byte2 s.arg) ^^^ mixTable 3 (byte3 s.arg),
      ecode := .ok }) ∧
  (∀ s, exec .tfast s = exec .tslow s) ∧ tFast 0x00000000 = 0x5B5B5B5B ∧
  mixTable 0 0x01 = 0xD0924242 ∧ mixTable 1 0x23 = 0xD324F7D3 ∧ mixTable 2 0x45 = 0xCDCDBF72 ∧
  mixTable 3 0x67 = 0xA08A8A2A ∧ tFast 0x01234567 = 0x6EF180C9

/-- 42 R213. -/
def Obligations.TblReadsMixingTable : Prop :=
  encode .tbl = 0x00000023 ∧
  (∀ s, exec .tbl s = .next { s with res := mixTable (s.arg.extractLsb' 8 2) (s.arg.extractLsb' 0 8), ecode := .ok }) ∧
  (∀ s, ∃ t, exec .tbl s = .next t ∧
    (s.arg = 0x00000000 → t.res = 0x8ED55B5B) ∧ (s.arg = 0xFFFFFC00 → t.res = 0x8ED55B5B) ∧
    (s.arg = 0x000003FF → t.res = 0x49212168) ∧ (s.arg = 0xFFFFFFFF → t.res = 0x49212168) ∧
    (s.arg = 0x000001D6 → t.res = 0xED977AED))

/-! ## KEYEXP and CRYPT -/

/-- 41 R174-R177 through KEYEXP (R180): with a legal length, a window in BUF and 16 written key bytes, RK takes the schedule
of those bytes in the order of D, KV and DIR are set, ECODE is 0, and nothing else changes. -/
def Obligations.KeyexpStoresSchedule : Prop :=
  ∀ (s : State) (d : Direction) (key : Vector Byte 16),
    s.keyLen = 16 → Fits s s.keyOff → HoldsBytes s s.keyOff.toNat key →
    ∃ K rk, KeySequence key K ∧ StoredInOrder d K rk ∧
      exec (.keyexp d) s = .next { s with rk := rk, kv := true, dir := d, ecode := .ok }

/-- 43 R230-R233, 30 R117 and 20 R88 through CRYPT (R240): with a key, both windows in BUF and 16 written input bytes, BUF
holds at OUT_OFF the block X[3], X[2], X[1], X[0] after the 32 rounds of the input as it stood, every other byte of BUF reads
as before, ECODE is 0, and nothing else changes. -/
def Obligations.CryptWritesTransformedBlock : Prop :=
  ∀ (s : State) (block : Vector Byte 16),
    s.kv = true → Fits s s.inOff → Fits s s.outOff → HoldsBytes s s.inOff.toNat block →
    ∃ X t, RoundSequence s.rk block X ∧
      exec .crypt s = .next t ∧ t = { s with buf := t.buf, ecode := .ok } ∧
      HoldsBytes t s.outOff.toNat (wordsToBlock (X 32)[3] (X 32)[2] (X 32)[1] (X 32)[0]) ∧
      ∀ a, ¬ (s.outOff.toNat ≤ a ∧ a < s.outOff.toNat + 16) → t.buf.read a = s.buf.read a

/-- 60 R283: the order of the checks; the other commands raise no error. -/
def Obligations.ErrorsInPriorityOrder : Prop :=
  (∀ c s, (∀ i, encode i ≠ c) → issueCommand c s = .next (withError s .illegalCmd)) ∧
  (∀ d s, s.keyLen ≠ 16 → exec (.keyexp d) s = .next (withError s .keyLength)) ∧
  (∀ d s, s.keyLen = 16 → ¬ Fits s s.keyOff → exec (.keyexp d) s = .next (withError s .keyBounds)) ∧
  (∀ s, s.kv = false → exec .crypt s = .next (withError s .noKey)) ∧
  (∀ s, s.kv = true → ¬ Fits s s.inOff → exec .crypt s = .next (withError s .inBounds)) ∧
  (∀ s, s.kv = true → Fits s s.inOff → ¬ Fits s s.outOff → exec .crypt s = .next (withError s .outBounds)) ∧
  (∀ i s, (∀ d, i ≠ .keyexp d) → i ≠ .crypt → ∃ t, exec i s = .next t ∧ t.ecode = .ok ∧ (s.err = false → t.err = false))

/-- The model's choice (logs 4 and 5) under 20 R74: KEYEXP over a key window with an UNWRITTEN byte sets the model fault
mark; it goes on with the schedule of SOME key that has the written bytes where they are written, whichever it is. -/
def Obligations.KeyexpOverUnwrittenSetsMark : Prop :=
  ∀ (s : State) (d : Direction) (k : Fin 16),
    s.keyLen = 16 → Fits s s.keyOff → s.buf.read (s.keyOff.toNat + k) = none →
    ∃ (key : Vector Byte 16) (K : Nat → Word) (rk : Vector Word 32),
      KeySequence key K ∧ StoredInOrder d K rk ∧
      (∀ (j : Fin 16) (b : Byte), s.buf.read (s.keyOff.toNat + j) = some b → key[j] = b) ∧
      exec (.keyexp d) s = .next { s with
        rk := rk, kv := true, dir := d, ecode := .ok, modelFault := true, freeIndex := s.freeIndex + 1 }

/-- The model's choice (logs 4 and 5) under 20 R74: CRYPT over an input window with an UNWRITTEN byte sets the model fault
mark; it goes on with SOME 16 bytes in the output window, which become defined, and changes no other byte of BUF. -/
def Obligations.CryptOverUnwrittenSetsMark : Prop :=
  ∀ (s : State) (k : Fin 16),
    s.kv = true → Fits s s.inOff → Fits s s.outOff → s.buf.read (s.inOff.toNat + k) = none →
    ∃ (out : Vector Byte 16) (t : State),
      exec .crypt s = .next t ∧
      t = { s with buf := t.buf, ecode := .ok, modelFault := true, freeIndex := s.freeIndex + 1 } ∧
      HoldsBytes t s.outOff.toNat out ∧
      ∀ a, ¬ (s.outOff.toNat ≤ a ∧ a < s.outOff.toNat + 16) → t.buf.read a = s.buf.read a

/-! ## Errors and flags -/

/-- 60 R282: a command that ends with a nonzero ECODE has set ERR, written ECODE and changed nothing else. -/
def Obligations.FailedCommandChangesOnlyErrorRecord : Prop :=
  ∀ (c : Word) (s t : State), issueCommand c s = .next t → t.ecode ≠ .ok → t = withError s t.ecode

/-- 60 R288: success writes ECODE = 0 and leaves ERR set, a second error overwrites ECODE and leaves ERR at 1, and only
ECLR or reset takes ERR from 1 to 0. -/
def Obligations.ErrorRecordIsSticky : Prop :=
  (∀ c s t, issueCommand c s = .next t → t.ecode ≠ .ok → t.err = true) ∧
  (∀ i s t, exec i s = .next t → t.ecode = .ok → i ≠ .eclr → t.err = s.err) ∧
  (∀ s t, exec .eclr s = .next t → t.err = false ∧ t.ecode = .ok) ∧
  (∀ s t, step s = .next t → NextReset s → t.err = false ∧ t.ecode = .ok) ∧
  (∀ s t, step s = .next t → s.err = true → t.err = false → NextCommand s .eclr ∨ NextReset s)

/-- 10 R34, R48: the fields of STATUS; 60 R281: the number of each error code. -/
def Obligations.StatusWordLayout : Prop :=
  ∀ s : State,
    s.statusWord.getLsbD 0 = false ∧ s.statusWord.getLsbD 1 = s.kv ∧
    s.statusWord.getLsbD 2 = decide (s.dir = .decrypt) ∧ s.statusWord.getLsbD 3 = s.err ∧
    s.statusWord.extractLsb' 4 4 = s.ecode.bits ∧ s.statusWord.extractLsb' 8 24 = 0 ∧
    ErrorCode.ok.bits = 0 ∧ ErrorCode.keyLength.bits = 1 ∧ ErrorCode.keyBounds.bits = 2 ∧ ErrorCode.inBounds.bits = 3 ∧
    ErrorCode.outBounds.bits = 4 ∧ ErrorCode.noKey.bits = 5 ∧ ErrorCode.illegalCmd.bits = 6

/-! ## Frames -/

/-- 10 R36-R43, R47 and 92 D32: what no command changes, and what each command alone changes. ERR and ECODE are
`ErrorRecordIsSticky`'s and the result statements'. -/
def Obligations.CommandFrame : Prop :=
  ∀ (i : Instr) (s t : State), exec i s = .next t →
    (t.cfg = s.cfg ∧ t.keyOff = s.keyOff ∧ t.keyLen = s.keyLen ∧ t.inOff = s.inOff ∧ t.outOff = s.outOff ∧
      t.arg = s.arg ∧ t.pending = s.pending ∧ t.responses = s.responses) ∧
    (i.isPrimitive = false → t.res = s.res) ∧
    ((∀ d, i ≠ .keyexp d) → i ≠ .kclr → t.rk = s.rk ∧ t.kv = s.kv ∧ t.dir = s.dir) ∧
    (i ≠ .eclr → t.ecode = .ok → t.err = s.err) ∧
    (i ≠ .crypt → ∀ a, t.buf.read a = s.buf.read a) ∧
    (∀ a, ¬ (s.outOff.toNat ≤ a ∧ a < s.outOff.toNat + 16) → t.buf.read a = s.buf.read a) ∧
    ((∀ d, i ≠ .keyexp d) → i ≠ .crypt → t.modelFault = s.modelFault ∧ t.freeIndex = s.freeIndex)

/-- 10 R40, R34: of all steps only a KEYEXP that passes its checks, KCLR and reset change RK, KV or DIR. -/
def Obligations.RkChangesOnlyByKeyCommands : Prop :=
  ∀ s t : State, step s = .next t → ¬ (t.rk = s.rk ∧ t.kv = s.kv ∧ t.dir = s.dir) →
    (∃ d, NextCommand s (.keyexp d) ∧ s.keyLen = 16 ∧ Fits s s.keyOff ∧ t.kv = true ∧ t.dir = d) ∨
    (NextCommand s .kclr ∧ t.rk = Vector.replicate 32 0 ∧ t.kv = false ∧ t.dir = .encrypt) ∨ NextReset s

/-- 10 R42: of all steps only a primitive command and reset change RES. -/
def Obligations.ResChangesOnlyByPrimitives : Prop :=
  ∀ s t : State, step s = .next t → t.res ≠ s.res → (∃ i, i.isPrimitive = true ∧ NextCommand s i) ∨ NextReset s

/-- 10 R36-R41 and 92 D32: of all steps only a bus write to the register itself, of the value it then holds, and reset
change an operand register. -/
def Obligations.OperandRegistersChangeOnlyByBusWrite : Prop :=
  ∀ (s t : State) (r : CtlReg), step s = .next t → r ∈ [CtlReg.keyOff, .keyLen, .inOff, .outOff, .arg] →
    t.readCtl r ≠ s.readCtl r →
    (∃ rest, s.pending = writeWord (ctlOffset r) (t.readCtl r) :: rest) ∨ NextReset s

/-- 10 R47, 20 R87: of all steps only a bus write of the window word a byte is in, a CRYPT whose output window it is in, and
reset change what a byte of BUF reads as. -/
def Obligations.BufChangesOnlyByWindowAndCrypt : Prop :=
  ∀ (s t : State) (a : Nat), step s = .next t → t.buf.read a ≠ s.buf.read a →
    (∃ o w rest, s.pending = writeWord o w :: rest ∧ o.toNat = 0x100 + 4 * (a / 4)) ∨
    (NextCommand s .crypt ∧ s.kv = true ∧ s.outOff.toNat ≤ a ∧ a < s.outOff.toNat + 16) ∨ NextReset s

/-! ## The model fault mark -/

/-- 60 R285: the mark is never cleared, by reset neither. -/
def Obligations.ModelFaultMarkIsPermanent : Prop :=
  ∀ s t : State, step s = .next t → s.modelFault = true → t.modelFault = true

/-- 20 R74: the mark is set only by a KEYEXP or CRYPT over a window with an UNWRITTEN byte, or by a bus read of a window
word with one. -/
def Obligations.ModelFaultOnlyFromUnwritten : Prop :=
  ∀ s t : State, step s = .next t → s.modelFault = false → t.modelFault = true →
    (∃ (d : Direction) (k : Fin 16), NextCommand s (.keyexp d) ∧ s.buf.read (s.keyOff.toNat + k) = none) ∨
    (∃ k : Fin 16, NextCommand s .crypt ∧ s.buf.read (s.inOff.toNat + k) = none) ∨
    (∃ o rest, ∃ k : Fin 4, s.pending = readWord o :: rest ∧ 0x100 ≤ o.toNat ∧ o.toNat < 0x100 + s.cfg.bufBytes ∧
      s.buf.read (o.toNat - 0x100 + k) = none)

/-! ## The bus -/

/-- 20 R82 (and R75, R83): what an aligned 32-bit read answers; it changes no state. The exception R82 makes, a window word
with an UNWRITTEN byte, is `ReadOfUnwrittenSetsMark`'s. -/
def Obligations.ReadSemantics : Prop :=
  ∀ s : State,
    Answers s (readWord 0x000) (.okData 0x534D3401) ∧
    Answers s (readWord 0x004) (.okData s.statusWord) ∧
    Answers s (readWord 0x008) (.okData 0x00000000) ∧
    Answers s (readWord 0x00C) (.okData (BitVec.ofNat 32 s.cfg.bufBytes)) ∧
    Answers s (readWord 0x010) (.okData s.keyOff) ∧
    Answers s (readWord 0x014) (.okData s.keyLen) ∧
    Answers s (readWord 0x018) (.okData s.inOff) ∧
    Answers s (readWord 0x01C) (.okData s.outOff) ∧
    Answers s (readWord 0x020) (.okData s.arg) ∧
    Answers s (readWord 0x024) (.okData s.res) ∧
    (∀ (i : Fin 32) (o : Offset), o.toNat = 0x080 + 4 * i → Answers s (readWord o) (.okData s.rk[i])) ∧
    (∀ (j : Nat) (o : Offset) (v : Vector Byte 4), o.toNat = 0x100 + 4 * j → 4 * j < s.cfg.bufBytes →
      HoldsBytes s (4 * j) v → Answers s (readWord o) (.okData (be32 v 0))) ∧
    (∀ o : Offset, o.toNat % 4 = 0 → Reserved s o → Answers s (readWord o) .busError)

/-- 20 R84 (and R75, R83): what an aligned 32-bit write does: RW registers take the word, RO registers ignore it, a window
word is stored most significant byte first, CMD issues the command, a reserved offset gives busError. -/
def Obligations.WriteSemantics : Prop :=
  ∀ (s : State) (w : Word),
    AnswersOkAs s (writeWord 0x010 w) { s with keyOff := w } ∧
    AnswersOkAs s (writeWord 0x014 w) { s with keyLen := w } ∧
    AnswersOkAs s (writeWord 0x018 w) { s with inOff := w } ∧
    AnswersOkAs s (writeWord 0x01C w) { s with outOff := w } ∧
    AnswersOkAs s (writeWord 0x020 w) { s with arg := w } ∧
    (∀ o ∈ [(0x000 : Offset), 0x004, 0x00C, 0x024], AnswersOkAs s (writeWord o w) s) ∧
    (∀ (i : Fin 32) (o : Offset), o.toNat = 0x080 + 4 * i → AnswersOkAs s (writeWord o w) s) ∧
    (∀ (j : Nat) (o : Offset), o.toNat = 0x100 + 4 * j → 4 * j < s.cfg.bufBytes →
      ∃ m : Memory, AnswersOkAs s (writeWord o w) { s with buf := m } ∧
        m.read (4 * j) = some (w.extractLsb' 24 8) ∧ m.read (4 * j + 1) = some (w.extractLsb' 16 8) ∧
        m.read (4 * j + 2) = some (w.extractLsb' 8 8) ∧ m.read (4 * j + 3) = some (w.extractLsb' 0 8) ∧
        ∀ a, a / 4 ≠ j → m.read a = s.buf.read a) ∧
    (∀ t, issueCommand w s = .next t → AnswersOkAs s (writeWord 0x008 w) t) ∧
    (∀ o : Offset, o.toNat % 4 = 0 → Reserved s o → Answers s (writeWord o w) .busError)

/-- 20 R81: a narrow or misaligned transaction returns busError and changes no state. -/
def Obligations.MalformedAccessIsBusError : Prop :=
  ∀ (s : State) (o : Offset) (width : Width) (w : Word), width ≠ .four ∨ o.toNat % 4 ≠ 0 →
    Answers s (.bus (.read o width)) .busError ∧ Answers s (.bus (.write o width w)) .busError

/-- 60 R284, 44 R260: a write to CMD answers ok whatever its data and its outcome. -/
def Obligations.CmdWriteAlwaysAnswersOk : Prop :=
  ∀ (s : State) (c : Word) (rest : List HostEvent), s.pending = cmdWrite c :: rest →
    ∃ t, step s = .next t ∧ t.responses = s.responses ++ [.ok] ∧ t.pending = rest

/-- 20 R80, R92: a step takes exactly the oldest event, and a bus transaction gets exactly one response, after all earlier
ones. -/
def Obligations.EachTransactionIsAnsweredOnce : Prop :=
  ∀ (s t : State) (e : HostEvent) (rest : List HostEvent), s.pending = e :: rest → step s = .next t →
    t.pending = rest ∧ ((∃ tr, e = .bus tr) → ∃ r, r ≠ .abandoned ∧ t.responses = s.responses ++ [r])

/-- 10 R33, R43, 00 R10: ID and BUFSIZE never change. -/
def Obligations.ParametersNeverChange : Prop :=
  ∀ s t : State, step s = .next t →
    t.cfg = s.cfg ∧ t.readCtl .id = s.readCtl .id ∧ t.readCtl .bufsize = s.readCtl .bufsize

/-! ## Reset and the invariant -/

/-- 70 R310, R311: reset, between transactions or during a command, gives every piece of state its reset value. -/
def Obligations.ResetGivesResetValues : Prop :=
  ∀ (s : State) (rest : List HostEvent) (e : HostEvent), s.pending = e :: rest → e = .reset ∨ (∃ c, e = .resetDuring c) →
    ∃ t, step s = .next t ∧
      (∀ i : Fin 32, t.rk[i] = 0x00000000) ∧ t.kv = false ∧ t.dir = .encrypt ∧ t.err = false ∧ t.ecode = .ok ∧
      t.keyOff = 0 ∧ t.keyLen = 0 ∧ t.inOff = 0 ∧ t.outOff = 0 ∧ t.arg = 0 ∧ t.res = 0 ∧
      (∀ a, t.buf.read a = none) ∧ t.statusWord = 0x00000000 ∧
      t.readCtl .id = 0x534D3401 ∧ t.readCtl .bufsize = BitVec.ofNat 32 s.cfg.bufBytes

/-- 70 R311 of the state the machine starts in: what every register and every byte of BUF reads as. -/
def Obligations.StartStateIsReset : Prop :=
  (∀ r ∈ [CtlReg.status, .cmd, .keyOff, .keyLen, .inOff, .outOff, .arg, .res], State.reset.readCtl r = 0x00000000) ∧
  State.reset.readCtl .id = 0x534D3401 ∧ State.reset.readCtl .bufsize = 0x00000100 ∧
  (∀ i : Fin 32, State.reset.rk[i] = 0x00000000) ∧ (∀ a, State.reset.buf.read a = none)

/-- The invariant holds right after reset, for every legal BUF_BYTES. -/
def Obligations.ResetMeetsInvariant : Prop := State.reset.Inv ∧ ∀ c : Config, c.legal → (State.resetWith c).Inv

/-- Every step keeps the invariant: BUF_BYTES legal; BUF canonical and inside its bounds; with KV = 1, RK the schedule of a
key in the order of DIR; with KV = 0, RK and DIR zero; a nonzero ECODE only with ERR = 1; NO_KEY only with KV = 0. -/
def Obligations.EveryStepKeepsInvariant : Prop := ∀ s t : State, s.Inv → step s = .next t → t.Inv

/-! ## The cipher -/

/-- 42 R203: the fast and the slow form agree on every word. -/
def Obligations.FastFormEqualsSlowForm : Prop := ∀ a : Word, tFast a = tSlow a

/-- 40 R144: every entry of the four tables in ROM is L of the substituted byte at its position. -/
def Obligations.MixingTablesAreGenerated : Prop :=
  ∀ (j : BitVec 2) (b : Byte), mixTable j b = lRound ((sbox b).setWidth 32 <<< (24 - 8 * j.toNat))

/-- 40 R141: the algebraic form of the S-box; I is inversion in GF(2^8), with I(0) = 0. -/
def Obligations.SboxHasAlgebraicForm : Prop :=
  (∀ x : Byte, sbox x = affineMatrix (gfInverse (affineMatrix x ^^^ 0xD3)) ^^^ 0xD3) ∧
  gfInverse 0 = 0 ∧ ∀ x : Byte, x ≠ 0 → gfMul x (gfInverse x) = 1

/-- 41 R171: τ is a bijection on words. -/
def Obligations.TauIsBijective : Prop :=
  Function.Bijective tau ∧ tau 0x00000000 = 0xD6D6D6D6 ∧ tau 0xFFFFFFFF = 0x48484848

/-- 41 R172: L′ is the XOR of three rotations, is linear over XOR and commutes with rotation. -/
def Obligations.LkeyIsLinear : Prop :=
  (∀ b, lKey b = b ^^^ rotl b 13 ^^^ rotl b 23) ∧ (∀ a b, lKey (a ^^^ b) = lKey a ^^^ lKey b) ∧
  ∀ w n, n < 32 → lKey (rotr w n) = rotr (lKey w) n

/-- 42 R200: L is the XOR of five rotations, is linear over XOR and commutes with rotation. -/
def Obligations.LroundIsLinear : Prop :=
  (∀ b, lRound b = b ^^^ rotl b 2 ^^^ rotl b 10 ^^^ rotl b 18 ^^^ rotl b 24) ∧
  (∀ a b, lRound (a ^^^ b) = lRound a ^^^ lRound b) ∧
  ∀ w n, n < 32 → lRound (rotr w n) = rotr (lRound w) n

/-- 41 R178: KEYEXP.D and KEYEXP.E of one key store reversed sequences. -/
def Obligations.SubkeyReversal : Prop :=
  ∀ (s : State) (key : Vector Byte 16), s.keyLen = 16 → Fits s s.keyOff → HoldsBytes s s.keyOff.toNat key →
    ∃ e d, exec (.keyexp .encrypt) s = .next e ∧ exec (.keyexp .decrypt) s = .next d ∧
      ∀ i : Fin 32, d.rk[i] = e.rk[31 - i.val]

/-- 43 R235: the in-place form equals the standard's sequence form. -/
def Obligations.TransformEqualsSequenceForm : Prop :=
  ∀ (rk : Vector Word 32) (block : Vector Byte 16) (Y : Nat → Word),
    (∀ j : Fin 4, Y j = be32 block (4 * j)) →
    (∀ i : Fin 32, Y (i + 4) = Y i ^^^ lRound (tau (Y (i + 1) ^^^ Y (i + 2) ^^^ Y (i + 3) ^^^ rk[i]))) →
    (∀ (n : Nat) (h : n < 32), (roundsUpTo rk (blockWords block) (n + 1) h)[n % 4] = Y (n + 4)) ∧
    blockTransform rk block = wordsToBlock (Y 35) (Y 34) (Y 33) (Y 32)

/-- The block transform under reversed subkeys undoes the block transform, for ANY 32 subkeys (the proof of 43 R236). -/
def Obligations.ReversedSubkeysInvert : Prop :=
  ∀ (rk : Vector Word 32) (block : Vector Byte 16), blockTransform rk.reverse (blockTransform rk block) = block

/-- 43 R236 in one run on the machine: KEYEXP.E, CRYPT in place, KEYEXP.D of the same key, CRYPT in place: the block stands
again in BUF, every command succeeds, and no model fault is added. Here the key window does not overlap the block's, since
the second KEYEXP reads the key again; `CryptRoundTrip` has R236 without that. -/
def Obligations.EncryptThenDecryptRestoresBlock : Prop :=
  ∀ (s : State) (key block : Vector Byte 16),
    s.keyLen = 16 → Fits s s.keyOff → Fits s s.inOff → s.outOff = s.inOff →
    s.keyOff.toNat + 16 ≤ s.inOff.toNat ∨ s.inOff.toNat + 16 ≤ s.keyOff.toNat →
    HoldsBytes s s.keyOff.toNat key → HoldsBytes s s.inOff.toNat block →
    ∃ s1 s2 s3 s4, exec (.keyexp .encrypt) s = .next s1 ∧ exec .crypt s1 = .next s2 ∧
      exec (.keyexp .decrypt) s2 = .next s3 ∧ exec .crypt s3 = .next s4 ∧
      s1.ecode = .ok ∧ s2.ecode = .ok ∧ s3.ecode = .ok ∧ s4.ecode = .ok ∧
      HoldsBytes s4 s.inOff.toNat block ∧ s4.modelFault = s.modelFault

/-- 43 R237: the output of CRYPT is a function of the 16 input bytes and RK only: two states that agree on these, at
whatever offsets and whatever else they hold, get the same output block. -/
def Obligations.CryptOutputDependsOnInputAndRk : Prop :=
  ∀ (s u : State) (block : Vector Byte 16),
    s.kv = true → u.kv = true → Fits s s.inOff → Fits s s.outOff → Fits u u.inOff → Fits u u.outOff →
    HoldsBytes s s.inOff.toNat block → HoldsBytes u u.inOff.toNat block → s.rk = u.rk →
    ∃ t v, exec .crypt s = .next t ∧ exec .crypt u = .next v ∧
      ∃ out : Vector Byte 16, HoldsBytes t s.outOff.toNat out ∧ HoldsBytes v u.outOff.toNat out

/-- 40 R149 item 3: the subkeys and the ciphertext of the standard key and block. Its 1,000,000-fold value is
`MillionfoldKnownAnswer`'s. -/
def Obligations.StandardKnownAnswers : Prop :=
  (keySchedule standardBlock .encrypt)[0] = 0xF12186F9 ∧ (keySchedule standardBlock .encrypt)[31] = 0x9124A012 ∧
  blockTransform (keySchedule standardBlock .encrypt) standardBlock =
    #v[0x68, 0x1E, 0xDF, 0x34, 0xD2, 0x06, 0x96, 0x5E, 0x86, 0xB3, 0xE9, 0x4F, 0x53, 0x6E, 0x42, 0x46]

/-- 40 R143: byte k of CK[i] is ((4i + k) * 7) mod 256, most significant byte first. -/
def Obligations.RoundConstantsFollowFormula : Prop :=
  ∀ i : Fin 32, roundConstants[i] =
    ofBytes (BitVec.ofNat 8 (4 * i * 7)) (BitVec.ofNat 8 ((4 * i + 1) * 7)) (BitVec.ofNat 8 ((4 * i + 2) * 7))
      (BitVec.ofNat 8 ((4 * i + 3) * 7))

/-! ## Statements beside the ones above -/

/-- The model's choice (logs 4 and 6) under 20 R74 and 60 R285: a read of a window word with an UNWRITTEN byte sets the model
fault mark, is answered modelFault, and changes nothing else. -/
def Obligations.ReadOfUnwrittenSetsMark : Prop :=
  ∀ (s : State) (j : Nat) (o : Offset) (k : Fin 4), o.toNat = 0x100 + 4 * j → 4 * j < s.cfg.bufBytes →
    s.buf.read (4 * j + k) = none →
    ∀ rest, step { s with pending := readWord o :: rest } =
      .next { s with pending := rest, modelFault := true, responses := s.responses ++ [.modelFault] }

/-- 43 R236: for every key and block P, CRYPT of P under the KEYEXP.E schedule gives C, and CRYPT of C under the KEYEXP.D
schedule of the same key gives P. The two KEYEXPs and the two CRYPTs run in any states that hold the key, P and C, at whatever
offsets and with whatever overlaps. -/
def Obligations.CryptRoundTrip : Prop :=
  ∀ (key block : Vector Byte 16) (s u : State), KeyReady s key → KeyReady u key →
    ∃ s1 u1, exec (.keyexp .encrypt) s = .next s1 ∧ exec (.keyexp .decrypt) u = .next u1 ∧
      ∀ v : State, v.rk = s1.rk → BlockReady v block →
        ∃ (v1 : State) (cipher : Vector Byte 16), exec .crypt v = .next v1 ∧ HoldsBytes v1 v.outOff.toNat cipher ∧
          ∀ w : State, w.rk = u1.rk → BlockReady w cipher →
            ∃ w1, exec .crypt w = .next w1 ∧ HoldsBytes w1 w.outOff.toNat block

/-- 95 Table V-CR, row 8, and 40 R149 item 3 for any count: CRYPT in place, `n` times, leaves in BUF the block transform
applied `n` times, each output the next input; RK stays, and no model fault is added. -/
def Obligations.RepeatedCryptChainsTransform : Prop :=
  ∀ (n : Nat) (s : State) (block : Vector Byte 16), BlockReady s block → s.outOff = s.inOff →
    ∃ t, repeatCrypt n s = .next t ∧ HoldsBytes t s.inOff.toNat (chainedTransform s.rk n block) ∧
      t.rk = s.rk ∧ t.modelFault = s.modelFault ∧ (n ≠ 0 → t.ecode = .ok)

/-- 40 R149 item 3: the transform of the standard block under the standard key, applied 1,000,000 times. The compiled
definitions evaluate to this value (log 14); a proof by evaluation takes 32 million rounds. -/
def Obligations.MillionfoldKnownAnswer : Prop :=
  chainedTransform (keySchedule standardBlock .encrypt) 1000000 standardBlock =
    #v[0x59, 0x52, 0x98, 0xC7, 0xC6, 0xFD, 0x27, 0x1F, 0x04, 0x02, 0xF8, 0x04, 0xC3, 0x3D, 0x3F, 0x66]
end

