-- ==== Sys2Proof/Laws/Cipher.lean ====
section
/-!
SUPPORT. One lemma for each function of the cipher that says what it computes, so that none is unfolded by its callers.
-/

namespace Sys2Proof.Machine

/-- The word that enters a window is the recurrence's (41_key_schedule.md R176); the other three move up. -/
theorem keyWindow_succ (key : Vector Byte 16) (i : Nat) :
    keyWindow key (i + 1) =
      #v[(keyWindow key i)[1], (keyWindow key i)[2], (keyWindow key i)[3],
        (keyWindow key i)[0] ^^^ tKey ((keyWindow key i)[1] ^^^ (keyWindow key i)[2] ^^^ (keyWindow key i)[3] ^^^ roundConstant i)] :=
  rfl

/-- The words of a window are words of the sequence. -/
theorem keyWindow_getElem (key : Vector Byte 16) (i j : Nat) (hj : j < 4) : (keyWindow key i)[j] = keyWord key (i + j) := by
  induction j generalizing i with
  | zero => rfl
  | succ j ih =>
    rw [show i + (j + 1) = i + 1 + j by omega, ← ih (i + 1) (by omega), keyWindow_succ]
    match j, hj with
    | 0, _ => rfl
    | 1, _ => rfl
    | 2, _ => rfl

theorem roundConstant_eq (i : Fin 32) : roundConstant i = roundConstants[i] := by
  simp [roundConstant]

theorem keySchedule_encrypt (key : Vector Byte 16) (i : Nat) (h : i < 32) :
    (keySchedule key .encrypt)[i] = keyWord key (i + 4) := by
  simp [keySchedule]

theorem keySchedule_decrypt (key : Vector Byte 16) (i : Nat) (h : i < 32) :
    (keySchedule key .decrypt)[i] = keyWord key (35 - i) := by
  simp [keySchedule]

theorem roundsUpTo_succ (rk : Vector Word 32) (x : Vector Word 4) (n : Nat) (h : n + 1 ≤ 32) :
    roundsUpTo rk x (n + 1) h = roundStep n rk[n] (roundsUpTo rk x n (by omega)) := rfl

/-- A round updates one word (43_block_transform.md R231). -/
theorem roundStep_getElem (i j : Nat) (k : Word) (x : Vector Word 4) (hj : j < 4) :
    (roundStep i k x)[j] =
      if i % 4 = j then
        x[i % 4] ^^^ roundForm i (x[(i + 1) % 4] ^^^ x[(i + 2) % 4] ^^^ x[(i + 3) % 4] ^^^ k)
      else x[j] := by
  simp [roundStep, Vector.getElem_set]

theorem blockTransform_eq (rk : Vector Word 32) (block : Vector Byte 16) :
    blockTransform rk block = outputBlock (roundsUpTo rk (blockWords block) 32 (Nat.le_refl 32)) := by
  unfold blockTransform; rfl

@[simp] theorem chainedTransform_zero (rk : Vector Word 32) (block : Vector Byte 16) :
    chainedTransform rk 0 block = block := rfl

@[simp] theorem chainedTransform_succ (rk : Vector Word 32) (n : Nat) (block : Vector Byte 16) :
    chainedTransform rk (n + 1) block = chainedTransform rk n (blockTransform rk block) := rfl

/-- A chain is cut at any place, so that a long one can be evaluated in parts. -/
theorem chainedTransform_add (rk : Vector Word 32) (m n : Nat) (block : Vector Byte 16) :
    chainedTransform rk (m + n) block = chainedTransform rk n (chainedTransform rk m block) := by
  induction m generalizing block with
  | zero => simp
  | succ m ih => simp [Nat.succ_add, ih]

end Sys2Proof.Machine
end

