-- ==== Sys2Proof/Laws/Memory.lean ====
section
/-!
SUPPORT. The laws of memory: what is read after a write, and that every memory operation keeps the canonical form.
-/

namespace Sys2Proof.Machine

theorem read_write_self (m : Memory) (a : Nat) (b : Byte) : (m.write a b).read a = some b := by
  induction m with
  | nil => simp [Memory.write, Memory.read]
  | cons p m ih =>
    obtain ⟨k, v⟩ := p
    simp only [Memory.write]
    split
    · simp [Memory.read]
    · split
      · simp [Memory.read]
      · simp [Memory.read, *]

theorem read_write_other (m : Memory) {a x : Nat} (b : Byte) (h : x ≠ a) : (m.write a b).read x = m.read x := by
  induction m with
  | nil => simp [Memory.write, Memory.read, h]
  | cons p m ih =>
    obtain ⟨k, v⟩ := p
    simp only [Memory.write]
    split
    · simp [Memory.read, h]
    · split
      · subst_vars; simp [Memory.read, h]
      · simp [Memory.read, ih]

/-- Everything one write does to what is read. -/
theorem read_write (m : Memory) (a x : Nat) (b : Byte) :
    (m.write a b).read x = if x = a then some b else m.read x := by
  split
  · subst_vars; exact read_write_self m x b
  · exact read_write_other m b ‹_›

/-- Everything a write of a byte sequence does to what is read: the bytes stand at a, a+1, …; every other byte is as it
was. -/
theorem read_writeBytes (m : Memory) (a x : Nat) (bs : List Byte) :
    (m.writeBytes a bs).read x = if h : a ≤ x ∧ x - a < bs.length then some (bs[x - a]'h.2) else m.read x := by
  induction bs generalizing m a with
  | nil => simp [Memory.writeBytes]
  | cons b bs ih =>
    rw [Memory.writeBytes, ih, read_write]
    by_cases hx : x = a
    · subst hx; simp
    · by_cases h : a + 1 ≤ x ∧ x - (a + 1) < bs.length
      · have h' : a ≤ x ∧ x - a < (b :: bs).length := by simp; omega
        have e : x - a = x - (a + 1) + 1 := by omega
        rw [dif_pos h, dif_pos h']
        simp [e]
      · have h' : ¬ (a ≤ x ∧ x - a < (b :: bs).length) := by simp at h ⊢; omega
        rw [dif_neg h, dif_neg h', if_neg hx]

/-- A listed address after a write is the written one or was listed before. -/
theorem mem_write {m : Memory} {a : Nat} {b : Byte} {p : Host.Cell} (h : p ∈ m.write a b) : p = (a, b) ∨ p ∈ m := by
  induction m with
  | nil => simp_all [Memory.write]
  | cons q m ih =>
    obtain ⟨k, v⟩ := q
    simp only [Memory.write] at h
    split at h
    · simpa using h
    · split at h
      · rcases List.mem_cons.1 h with h | h
        · exact .inl h
        · exact .inr (List.mem_cons_of_mem _ h)
      · rcases List.mem_cons.1 h with h | h
        · exact .inr (h ▸ List.mem_cons_self)
        · exact (ih h).imp id (List.mem_cons_of_mem _)

theorem wf_nil : Memory.wf [] := List.Pairwise.nil

/-- A write keeps the canonical form. -/
theorem wf_write {m : Memory} (h : m.wf) (a : Nat) (b : Byte) : (m.write a b).wf := by
  induction m with
  | nil => simp [Memory.write, Memory.wf]
  | cons q m ih =>
    obtain ⟨k, v⟩ := q
    obtain ⟨hk, hm⟩ := List.pairwise_cons.1 h
    simp only [Memory.write]
    split
    · rename_i hlt
      refine List.pairwise_cons.2 ⟨fun p hp => ?_, h⟩
      rcases List.mem_cons.1 hp with rfl | hp
      · exact hlt
      · exact Nat.lt_trans hlt (hk p hp)
    · split
      · subst_vars; exact List.pairwise_cons.2 ⟨hk, hm⟩
      · refine List.pairwise_cons.2 ⟨fun p hp => ?_, ih hm⟩
        rcases mem_write hp with rfl | hp
        · show k < a; omega
        · exact hk p hp

/-- A write of a byte sequence keeps the canonical form. -/
theorem wf_writeBytes {m : Memory} (h : m.wf) (a : Nat) (bs : List Byte) : (m.writeBytes a bs).wf := by
  induction bs generalizing m a with
  | nil => exact h
  | cons b bs ih => exact ih (wf_write h a b) (a + 1)

/-- A listed address after a write of a byte sequence is one of the written ones or was listed before. -/
theorem mem_writeBytes {m : Memory} {a : Nat} {bs : List Byte} {p : Host.Cell} (h : p ∈ m.writeBytes a bs) :
    (a ≤ p.1 ∧ p.1 < a + bs.length) ∨ p ∈ m := by
  induction bs generalizing m a with
  | nil => exact .inr h
  | cons b bs ih =>
    rcases ih h with h | h
    · simp only [List.length_cons]; omega
    · rcases mem_write h with rfl | h
      · simp
      · exact .inr h

theorem wf_reset : State.reset.buf.wf := List.Pairwise.nil

end Sys2Proof.Machine
end

