-- ==== Sys2Proof/Laws/State.lean ====
section
/-!
SUPPORT. One lemma per field and update of State, so that no proof unfolds a record update.
-/

namespace Sys2Proof.Machine

variable (s : State)

/-! `State.raiseError` -/

@[simp] theorem raiseError_cfg (c : ErrorCode) : (s.raiseError c).cfg = s.cfg := rfl
@[simp] theorem raiseError_rk (c : ErrorCode) : (s.raiseError c).rk = s.rk := rfl
@[simp] theorem raiseError_kv (c : ErrorCode) : (s.raiseError c).kv = s.kv := rfl
@[simp] theorem raiseError_dir (c : ErrorCode) : (s.raiseError c).dir = s.dir := rfl
@[simp] theorem raiseError_err (c : ErrorCode) : (s.raiseError c).err = true := rfl
@[simp] theorem raiseError_ecode (c : ErrorCode) : (s.raiseError c).ecode = c := rfl
@[simp] theorem raiseError_keyOff (c : ErrorCode) : (s.raiseError c).keyOff = s.keyOff := rfl
@[simp] theorem raiseError_keyLen (c : ErrorCode) : (s.raiseError c).keyLen = s.keyLen := rfl
@[simp] theorem raiseError_inOff (c : ErrorCode) : (s.raiseError c).inOff = s.inOff := rfl
@[simp] theorem raiseError_outOff (c : ErrorCode) : (s.raiseError c).outOff = s.outOff := rfl
@[simp] theorem raiseError_arg (c : ErrorCode) : (s.raiseError c).arg = s.arg := rfl
@[simp] theorem raiseError_res (c : ErrorCode) : (s.raiseError c).res = s.res := rfl
@[simp] theorem raiseError_buf (c : ErrorCode) : (s.raiseError c).buf = s.buf := rfl
@[simp] theorem raiseError_modelFault (c : ErrorCode) : (s.raiseError c).modelFault = s.modelFault := rfl
@[simp] theorem raiseError_freeIndex (c : ErrorCode) : (s.raiseError c).freeIndex = s.freeIndex := rfl
@[simp] theorem raiseError_pending (c : ErrorCode) : (s.raiseError c).pending = s.pending := rfl
@[simp] theorem raiseError_responses (c : ErrorCode) : (s.raiseError c).responses = s.responses := rfl

/-! `State.succeed` -/

@[simp] theorem succeed_cfg : (s.succeed).cfg = s.cfg := rfl
@[simp] theorem succeed_rk : (s.succeed).rk = s.rk := rfl
@[simp] theorem succeed_kv : (s.succeed).kv = s.kv := rfl
@[simp] theorem succeed_dir : (s.succeed).dir = s.dir := rfl
@[simp] theorem succeed_err : (s.succeed).err = s.err := rfl
@[simp] theorem succeed_ecode : (s.succeed).ecode = .ok := rfl
@[simp] theorem succeed_keyOff : (s.succeed).keyOff = s.keyOff := rfl
@[simp] theorem succeed_keyLen : (s.succeed).keyLen = s.keyLen := rfl
@[simp] theorem succeed_inOff : (s.succeed).inOff = s.inOff := rfl
@[simp] theorem succeed_outOff : (s.succeed).outOff = s.outOff := rfl
@[simp] theorem succeed_arg : (s.succeed).arg = s.arg := rfl
@[simp] theorem succeed_res : (s.succeed).res = s.res := rfl
@[simp] theorem succeed_buf : (s.succeed).buf = s.buf := rfl
@[simp] theorem succeed_modelFault : (s.succeed).modelFault = s.modelFault := rfl
@[simp] theorem succeed_freeIndex : (s.succeed).freeIndex = s.freeIndex := rfl
@[simp] theorem succeed_pending : (s.succeed).pending = s.pending := rfl
@[simp] theorem succeed_responses : (s.succeed).responses = s.responses := rfl

/-! `State.clearErrors` -/

@[simp] theorem clearErrors_cfg : (s.clearErrors).cfg = s.cfg := rfl
@[simp] theorem clearErrors_rk : (s.clearErrors).rk = s.rk := rfl
@[simp] theorem clearErrors_kv : (s.clearErrors).kv = s.kv := rfl
@[simp] theorem clearErrors_dir : (s.clearErrors).dir = s.dir := rfl
@[simp] theorem clearErrors_err : (s.clearErrors).err = false := rfl
@[simp] theorem clearErrors_ecode : (s.clearErrors).ecode = .ok := rfl
@[simp] theorem clearErrors_keyOff : (s.clearErrors).keyOff = s.keyOff := rfl
@[simp] theorem clearErrors_keyLen : (s.clearErrors).keyLen = s.keyLen := rfl
@[simp] theorem clearErrors_inOff : (s.clearErrors).inOff = s.inOff := rfl
@[simp] theorem clearErrors_outOff : (s.clearErrors).outOff = s.outOff := rfl
@[simp] theorem clearErrors_arg : (s.clearErrors).arg = s.arg := rfl
@[simp] theorem clearErrors_res : (s.clearErrors).res = s.res := rfl
@[simp] theorem clearErrors_buf : (s.clearErrors).buf = s.buf := rfl
@[simp] theorem clearErrors_modelFault : (s.clearErrors).modelFault = s.modelFault := rfl
@[simp] theorem clearErrors_freeIndex : (s.clearErrors).freeIndex = s.freeIndex := rfl
@[simp] theorem clearErrors_pending : (s.clearErrors).pending = s.pending := rfl
@[simp] theorem clearErrors_responses : (s.clearErrors).responses = s.responses := rfl

/-! `State.markModelFault` -/

@[simp] theorem markModelFault_cfg : (s.markModelFault).cfg = s.cfg := rfl
@[simp] theorem markModelFault_rk : (s.markModelFault).rk = s.rk := rfl
@[simp] theorem markModelFault_kv : (s.markModelFault).kv = s.kv := rfl
@[simp] theorem markModelFault_dir : (s.markModelFault).dir = s.dir := rfl
@[simp] theorem markModelFault_err : (s.markModelFault).err = s.err := rfl
@[simp] theorem markModelFault_ecode : (s.markModelFault).ecode = s.ecode := rfl
@[simp] theorem markModelFault_keyOff : (s.markModelFault).keyOff = s.keyOff := rfl
@[simp] theorem markModelFault_keyLen : (s.markModelFault).keyLen = s.keyLen := rfl
@[simp] theorem markModelFault_inOff : (s.markModelFault).inOff = s.inOff := rfl
@[simp] theorem markModelFault_outOff : (s.markModelFault).outOff = s.outOff := rfl
@[simp] theorem markModelFault_arg : (s.markModelFault).arg = s.arg := rfl
@[simp] theorem markModelFault_res : (s.markModelFault).res = s.res := rfl
@[simp] theorem markModelFault_buf : (s.markModelFault).buf = s.buf := rfl
@[simp] theorem markModelFault_modelFault : (s.markModelFault).modelFault = true := rfl
@[simp] theorem markModelFault_freeIndex : (s.markModelFault).freeIndex = s.freeIndex := rfl
@[simp] theorem markModelFault_pending : (s.markModelFault).pending = s.pending := rfl
@[simp] theorem markModelFault_responses : (s.markModelFault).responses = s.responses := rfl

/-! `State.installKey` -/

@[simp] theorem installKey_cfg (k : Vector Word 32) (d : Direction) : (s.installKey k d).cfg = s.cfg := rfl
@[simp] theorem installKey_rk (k : Vector Word 32) (d : Direction) : (s.installKey k d).rk = k := rfl
@[simp] theorem installKey_kv (k : Vector Word 32) (d : Direction) : (s.installKey k d).kv = true := rfl
@[simp] theorem installKey_dir (k : Vector Word 32) (d : Direction) : (s.installKey k d).dir = d := rfl
@[simp] theorem installKey_err (k : Vector Word 32) (d : Direction) : (s.installKey k d).err = s.err := rfl
@[simp] theorem installKey_ecode (k : Vector Word 32) (d : Direction) : (s.installKey k d).ecode = s.ecode := rfl
@[simp] theorem installKey_keyOff (k : Vector Word 32) (d : Direction) : (s.installKey k d).keyOff = s.keyOff := rfl
@[simp] theorem installKey_keyLen (k : Vector Word 32) (d : Direction) : (s.installKey k d).keyLen = s.keyLen := rfl
@[simp] theorem installKey_inOff (k : Vector Word 32) (d : Direction) : (s.installKey k d).inOff = s.inOff := rfl
@[simp] theorem installKey_outOff (k : Vector Word 32) (d : Direction) : (s.installKey k d).outOff = s.outOff := rfl
@[simp] theorem installKey_arg (k : Vector Word 32) (d : Direction) : (s.installKey k d).arg = s.arg := rfl
@[simp] theorem installKey_res (k : Vector Word 32) (d : Direction) : (s.installKey k d).res = s.res := rfl
@[simp] theorem installKey_buf (k : Vector Word 32) (d : Direction) : (s.installKey k d).buf = s.buf := rfl
@[simp] theorem installKey_modelFault (k : Vector Word 32) (d : Direction) : (s.installKey k d).modelFault = s.modelFault := rfl
@[simp] theorem installKey_freeIndex (k : Vector Word 32) (d : Direction) : (s.installKey k d).freeIndex = s.freeIndex := rfl
@[simp] theorem installKey_pending (k : Vector Word 32) (d : Direction) : (s.installKey k d).pending = s.pending := rfl
@[simp] theorem installKey_responses (k : Vector Word 32) (d : Direction) : (s.installKey k d).responses = s.responses := rfl

/-! `State.clearKey` -/

@[simp] theorem clearKey_cfg : (s.clearKey).cfg = s.cfg := rfl
@[simp] theorem clearKey_rk : (s.clearKey).rk = Vector.replicate 32 0 := rfl
@[simp] theorem clearKey_kv : (s.clearKey).kv = false := rfl
@[simp] theorem clearKey_dir : (s.clearKey).dir = .encrypt := rfl
@[simp] theorem clearKey_err : (s.clearKey).err = s.err := rfl
@[simp] theorem clearKey_ecode : (s.clearKey).ecode = s.ecode := rfl
@[simp] theorem clearKey_keyOff : (s.clearKey).keyOff = s.keyOff := rfl
@[simp] theorem clearKey_keyLen : (s.clearKey).keyLen = s.keyLen := rfl
@[simp] theorem clearKey_inOff : (s.clearKey).inOff = s.inOff := rfl
@[simp] theorem clearKey_outOff : (s.clearKey).outOff = s.outOff := rfl
@[simp] theorem clearKey_arg : (s.clearKey).arg = s.arg := rfl
@[simp] theorem clearKey_res : (s.clearKey).res = s.res := rfl
@[simp] theorem clearKey_buf : (s.clearKey).buf = s.buf := rfl
@[simp] theorem clearKey_modelFault : (s.clearKey).modelFault = s.modelFault := rfl
@[simp] theorem clearKey_freeIndex : (s.clearKey).freeIndex = s.freeIndex := rfl
@[simp] theorem clearKey_pending : (s.clearKey).pending = s.pending := rfl
@[simp] theorem clearKey_responses : (s.clearKey).responses = s.responses := rfl

/-! `State.setRes` -/

@[simp] theorem setRes_cfg (w : Word) : (s.setRes w).cfg = s.cfg := rfl
@[simp] theorem setRes_rk (w : Word) : (s.setRes w).rk = s.rk := rfl
@[simp] theorem setRes_kv (w : Word) : (s.setRes w).kv = s.kv := rfl
@[simp] theorem setRes_dir (w : Word) : (s.setRes w).dir = s.dir := rfl
@[simp] theorem setRes_err (w : Word) : (s.setRes w).err = s.err := rfl
@[simp] theorem setRes_ecode (w : Word) : (s.setRes w).ecode = s.ecode := rfl
@[simp] theorem setRes_keyOff (w : Word) : (s.setRes w).keyOff = s.keyOff := rfl
@[simp] theorem setRes_keyLen (w : Word) : (s.setRes w).keyLen = s.keyLen := rfl
@[simp] theorem setRes_inOff (w : Word) : (s.setRes w).inOff = s.inOff := rfl
@[simp] theorem setRes_outOff (w : Word) : (s.setRes w).outOff = s.outOff := rfl
@[simp] theorem setRes_arg (w : Word) : (s.setRes w).arg = s.arg := rfl
@[simp] theorem setRes_res (w : Word) : (s.setRes w).res = w := rfl
@[simp] theorem setRes_buf (w : Word) : (s.setRes w).buf = s.buf := rfl
@[simp] theorem setRes_modelFault (w : Word) : (s.setRes w).modelFault = s.modelFault := rfl
@[simp] theorem setRes_freeIndex (w : Word) : (s.setRes w).freeIndex = s.freeIndex := rfl
@[simp] theorem setRes_pending (w : Word) : (s.setRes w).pending = s.pending := rfl
@[simp] theorem setRes_responses (w : Word) : (s.setRes w).responses = s.responses := rfl

/-! `State.memWrite` -/

@[simp] theorem memWrite_cfg {n : Nat} (a : Nat) (v : Vector Byte n) : (s.memWrite a v).cfg = s.cfg := rfl
@[simp] theorem memWrite_rk {n : Nat} (a : Nat) (v : Vector Byte n) : (s.memWrite a v).rk = s.rk := rfl
@[simp] theorem memWrite_kv {n : Nat} (a : Nat) (v : Vector Byte n) : (s.memWrite a v).kv = s.kv := rfl
@[simp] theorem memWrite_dir {n : Nat} (a : Nat) (v : Vector Byte n) : (s.memWrite a v).dir = s.dir := rfl
@[simp] theorem memWrite_err {n : Nat} (a : Nat) (v : Vector Byte n) : (s.memWrite a v).err = s.err := rfl
@[simp] theorem memWrite_ecode {n : Nat} (a : Nat) (v : Vector Byte n) : (s.memWrite a v).ecode = s.ecode := rfl
@[simp] theorem memWrite_keyOff {n : Nat} (a : Nat) (v : Vector Byte n) : (s.memWrite a v).keyOff = s.keyOff := rfl
@[simp] theorem memWrite_keyLen {n : Nat} (a : Nat) (v : Vector Byte n) : (s.memWrite a v).keyLen = s.keyLen := rfl
@[simp] theorem memWrite_inOff {n : Nat} (a : Nat) (v : Vector Byte n) : (s.memWrite a v).inOff = s.inOff := rfl
@[simp] theorem memWrite_outOff {n : Nat} (a : Nat) (v : Vector Byte n) : (s.memWrite a v).outOff = s.outOff := rfl
@[simp] theorem memWrite_arg {n : Nat} (a : Nat) (v : Vector Byte n) : (s.memWrite a v).arg = s.arg := rfl
@[simp] theorem memWrite_res {n : Nat} (a : Nat) (v : Vector Byte n) : (s.memWrite a v).res = s.res := rfl
@[simp] theorem memWrite_buf {n : Nat} (a : Nat) (v : Vector Byte n) : (s.memWrite a v).buf = s.buf.writeBytes a v.toList := rfl
@[simp] theorem memWrite_modelFault {n : Nat} (a : Nat) (v : Vector Byte n) : (s.memWrite a v).modelFault = s.modelFault := rfl
@[simp] theorem memWrite_freeIndex {n : Nat} (a : Nat) (v : Vector Byte n) : (s.memWrite a v).freeIndex = s.freeIndex := rfl
@[simp] theorem memWrite_pending {n : Nat} (a : Nat) (v : Vector Byte n) : (s.memWrite a v).pending = s.pending := rfl
@[simp] theorem memWrite_responses {n : Nat} (a : Nat) (v : Vector Byte n) : (s.memWrite a v).responses = s.responses := rfl

/-! `State.respond` -/

@[simp] theorem respond_cfg (r : Response) : (s.respond r).cfg = s.cfg := rfl
@[simp] theorem respond_rk (r : Response) : (s.respond r).rk = s.rk := rfl
@[simp] theorem respond_kv (r : Response) : (s.respond r).kv = s.kv := rfl
@[simp] theorem respond_dir (r : Response) : (s.respond r).dir = s.dir := rfl
@[simp] theorem respond_err (r : Response) : (s.respond r).err = s.err := rfl
@[simp] theorem respond_ecode (r : Response) : (s.respond r).ecode = s.ecode := rfl
@[simp] theorem respond_keyOff (r : Response) : (s.respond r).keyOff = s.keyOff := rfl
@[simp] theorem respond_keyLen (r : Response) : (s.respond r).keyLen = s.keyLen := rfl
@[simp] theorem respond_inOff (r : Response) : (s.respond r).inOff = s.inOff := rfl
@[simp] theorem respond_outOff (r : Response) : (s.respond r).outOff = s.outOff := rfl
@[simp] theorem respond_arg (r : Response) : (s.respond r).arg = s.arg := rfl
@[simp] theorem respond_res (r : Response) : (s.respond r).res = s.res := rfl
@[simp] theorem respond_buf (r : Response) : (s.respond r).buf = s.buf := rfl
@[simp] theorem respond_modelFault (r : Response) : (s.respond r).modelFault = s.modelFault := rfl
@[simp] theorem respond_freeIndex (r : Response) : (s.respond r).freeIndex = s.freeIndex := rfl
@[simp] theorem respond_pending (r : Response) : (s.respond r).pending = s.pending := rfl
@[simp] theorem respond_responses (r : Response) : (s.respond r).responses = s.responses ++ [r] := rfl

/-! `State.present` -/

@[simp] theorem present_cfg (e : HostEvent) : (s.present e).cfg = s.cfg := rfl
@[simp] theorem present_rk (e : HostEvent) : (s.present e).rk = s.rk := rfl
@[simp] theorem present_kv (e : HostEvent) : (s.present e).kv = s.kv := rfl
@[simp] theorem present_dir (e : HostEvent) : (s.present e).dir = s.dir := rfl
@[simp] theorem present_err (e : HostEvent) : (s.present e).err = s.err := rfl
@[simp] theorem present_ecode (e : HostEvent) : (s.present e).ecode = s.ecode := rfl
@[simp] theorem present_keyOff (e : HostEvent) : (s.present e).keyOff = s.keyOff := rfl
@[simp] theorem present_keyLen (e : HostEvent) : (s.present e).keyLen = s.keyLen := rfl
@[simp] theorem present_inOff (e : HostEvent) : (s.present e).inOff = s.inOff := rfl
@[simp] theorem present_outOff (e : HostEvent) : (s.present e).outOff = s.outOff := rfl
@[simp] theorem present_arg (e : HostEvent) : (s.present e).arg = s.arg := rfl
@[simp] theorem present_res (e : HostEvent) : (s.present e).res = s.res := rfl
@[simp] theorem present_buf (e : HostEvent) : (s.present e).buf = s.buf := rfl
@[simp] theorem present_modelFault (e : HostEvent) : (s.present e).modelFault = s.modelFault := rfl
@[simp] theorem present_freeIndex (e : HostEvent) : (s.present e).freeIndex = s.freeIndex := rfl
@[simp] theorem present_pending (e : HostEvent) : (s.present e).pending = e :: s.pending := rfl
@[simp] theorem present_responses (e : HostEvent) : (s.present e).responses = s.responses := rfl

/-! `State.applyReset` -/

@[simp] theorem applyReset_cfg : (s.applyReset).cfg = s.cfg := rfl
@[simp] theorem applyReset_rk : (s.applyReset).rk = Vector.replicate 32 0 := rfl
@[simp] theorem applyReset_kv : (s.applyReset).kv = false := rfl
@[simp] theorem applyReset_dir : (s.applyReset).dir = .encrypt := rfl
@[simp] theorem applyReset_err : (s.applyReset).err = false := rfl
@[simp] theorem applyReset_ecode : (s.applyReset).ecode = .ok := rfl
@[simp] theorem applyReset_keyOff : (s.applyReset).keyOff = 0 := rfl
@[simp] theorem applyReset_keyLen : (s.applyReset).keyLen = 0 := rfl
@[simp] theorem applyReset_inOff : (s.applyReset).inOff = 0 := rfl
@[simp] theorem applyReset_outOff : (s.applyReset).outOff = 0 := rfl
@[simp] theorem applyReset_arg : (s.applyReset).arg = 0 := rfl
@[simp] theorem applyReset_res : (s.applyReset).res = 0 := rfl
@[simp] theorem applyReset_buf : (s.applyReset).buf = [] := rfl
@[simp] theorem applyReset_modelFault : (s.applyReset).modelFault = s.modelFault := rfl
@[simp] theorem applyReset_freeIndex : (s.applyReset).freeIndex = s.freeIndex := rfl
@[simp] theorem applyReset_pending : (s.applyReset).pending = s.pending := rfl
@[simp] theorem applyReset_responses : (s.applyReset).responses = s.responses := rfl

end Sys2Proof.Machine
end

