-- ==== Sys2Proof/Laws/Ops.lean ====
section
/-!
SUPPORT. For each shared operation one lemma that says everything it can do.
-/

namespace Sys2Proof.Machine

/-! ## Operands -/

theorem windowFits_iff (s : State) (off : Word) : s.windowFits off = true ↔ off.toNat + 16 ≤ s.cfg.bufBytes := by
  simp [State.windowFits]

theorem written_iff (s : State) (a n : Nat) : s.written a n = true ↔ ∀ k < n, (s.buf.read (a + k)).isSome := by
  simp [State.written]

/-- `MemRead` over written bytes gives those bytes. -/
theorem memRead_eq {s : State} {a n : Nat} {v : Vector Byte n} (h : ∀ k : Fin n, s.buf.read (a + k) = some v[k]) :
    s.memRead a n = v := by
  ext i hi
  have := h ⟨i, hi⟩
  simp_all [State.memRead]

/-- A byte of `MemRead` that has been written is the byte in BUF, whatever the others are. -/
theorem memRead_getElem {s : State} {a n k : Nat} {b : Byte} (hk : k < n) (h : s.buf.read (a + k) = some b) :
    (s.memRead a n)[k] = b := by
  simp [State.memRead, h]

theorem afterRead_of_written {s : State} {a n : Nat} (h : s.written a n = true) : s.afterRead a n = s := by
  simp [State.afterRead, h]

theorem written_of_bytes {s : State} {a n : Nat} {v : Vector Byte n} (h : ∀ k : Fin n, s.buf.read (a + k) = some v[k]) :
    s.written a n = true :=
  (written_iff s a n).2 fun k hk => by rw [h ⟨k, hk⟩]; rfl

/-- A `MemWrite` of a byte sequence leaves it where it was written. -/
theorem memWrite_read {n : Nat} (s : State) (a : Nat) (v : Vector Byte n) (k : Fin n) :
    (s.memWrite a v).buf.read (a + k) = some v[k] := by
  simp [State.memWrite, read_writeBytes]

/-- What a `MemRead` can do to the state: nothing, or set the mark and take free values. -/
theorem afterRead_cases (s : State) (a n : Nat) :
    (s.written a n = true ∧ s.afterRead a n = s) ∨
    (s.written a n = false ∧ s.afterRead a n = { s with modelFault := true, freeIndex := s.freeIndex + 1 }) := by
  cases h : s.written a n
  · exact .inr ⟨rfl, by simp [State.afterRead, h, State.markModelFault]⟩
  · exact .inl ⟨rfl, afterRead_of_written h⟩

/-- A `MemRead` changes at most the mark and the counter of free values. -/
theorem afterRead_eq (s : State) (a n : Nat) :
    s.afterRead a n =
      { s with modelFault := (s.afterRead a n).modelFault, freeIndex := (s.afterRead a n).freeIndex } := by
  rcases afterRead_cases s a n with ⟨_, h⟩ | ⟨_, h⟩ <;> rw [h]

/-! ## Commands -/

/-- Everything KEYEXP can do. -/
theorem exec_keyexp_cases (d : Direction) (s : State) :
    (s.keyLen ≠ 16 ∧ exec (.keyexp d) s = .next (s.raiseError .keyLength)) ∨
    (s.keyLen = 16 ∧ s.windowFits s.keyOff = false ∧ exec (.keyexp d) s = .next (s.raiseError .keyBounds)) ∨
    (s.keyLen = 16 ∧ s.windowFits s.keyOff = true ∧
      exec (.keyexp d) s =
        .next (((s.afterRead s.keyOff.toNat 16).installKey (keySchedule (s.memRead s.keyOff.toNat 16) d) d).succeed)) := by
  by_cases h : s.keyLen = 16
  · cases hf : s.windowFits s.keyOff
    · exact .inr (.inl ⟨h, rfl, by simp [exec, execKeyexp, h, hf]⟩)
    · exact .inr (.inr ⟨h, rfl, by simp [exec, execKeyexp, h, hf]⟩)
  · exact .inl ⟨h, by simp only [exec, execKeyexp, if_pos (show s.keyLen ≠ 16 from h)]⟩

/-- Everything CRYPT can do. -/
theorem exec_crypt_cases (s : State) :
    (s.kv = false ∧ exec .crypt s = .next (s.raiseError .noKey)) ∨
    (s.kv = true ∧ s.windowFits s.inOff = false ∧ exec .crypt s = .next (s.raiseError .inBounds)) ∨
    (s.kv = true ∧ s.windowFits s.inOff = true ∧ s.windowFits s.outOff = false ∧
      exec .crypt s = .next (s.raiseError .outBounds)) ∨
    (s.kv = true ∧ s.windowFits s.inOff = true ∧ s.windowFits s.outOff = true ∧
      exec .crypt s =
        .next (((s.afterRead s.inOff.toNat 16).memWrite s.outOff.toNat
          (blockTransform s.rk (s.memRead s.inOff.toNat 16))).succeed)) := by
  cases hk : s.kv
  · exact .inl ⟨rfl, by simp [exec, execCrypt, hk]⟩
  · cases hi : s.windowFits s.inOff
    · exact .inr (.inl ⟨rfl, rfl, by simp [exec, execCrypt, hk, hi]⟩)
    · cases ho : s.windowFits s.outOff
      · exact .inr (.inr (.inl ⟨rfl, rfl, rfl, by simp [exec, execCrypt, hk, hi, ho]⟩))
      · exact .inr (.inr (.inr ⟨rfl, rfl, rfl, by simp [exec, execCrypt, hk, hi, ho]⟩))

/-- KEYEXP that passes its checks over written key bytes. -/
theorem exec_keyexp_written {s : State} {key : Vector Byte 16} (d : Direction) (hl : s.keyLen = 16)
    (hf : s.keyOff.toNat + 16 ≤ s.cfg.bufBytes) (hb : ∀ k : Fin 16, s.buf.read (s.keyOff.toNat + k) = some key[k]) :
    exec (.keyexp d) s = .next (s.installKey (keySchedule key d) d).succeed := by
  have h := (windowFits_iff s s.keyOff).2 hf
  rcases exec_keyexp_cases d s with ⟨hn, _⟩ | ⟨_, hn, _⟩ | ⟨_, _, he⟩
  · exact absurd hl hn
  · simp [h] at hn
  · rw [he, afterRead_of_written (written_of_bytes hb), memRead_eq hb]

/-- CRYPT that passes its checks over written input bytes. -/
theorem exec_crypt_written {s : State} {block : Vector Byte 16} (hk : s.kv = true)
    (hi : s.inOff.toNat + 16 ≤ s.cfg.bufBytes) (ho : s.outOff.toNat + 16 ≤ s.cfg.bufBytes)
    (hb : ∀ k : Fin 16, s.buf.read (s.inOff.toNat + k) = some block[k]) :
    exec .crypt s = .next (s.memWrite s.outOff.toNat (blockTransform s.rk block)).succeed := by
  have h1 := (windowFits_iff s s.inOff).2 hi
  have h2 := (windowFits_iff s s.outOff).2 ho
  rcases exec_crypt_cases s with ⟨hn, _⟩ | ⟨_, hn, _⟩ | ⟨_, _, hn, _⟩ | ⟨_, _, _, he⟩
  · simp [hk] at hn
  · simp [h1] at hn
  · simp [h2] at hn
  · rw [he, afterRead_of_written (written_of_bytes hb), memRead_eq hb]

/-- What a primitive command computes. -/
def primitiveResult (s : State) : Instr → Word
  | .tau => tau s.arg
  | .lkey => lKey s.arg
  | .tkey => tKey s.arg
  | .ldif => lRound s.arg
  | .tslow => tSlow s.arg
  | .tfast => tFast s.arg
  | .tbl => mixTable s.tblIndex s.tblByte
  | .nop | .keyexp _ | .crypt | .kclr | .eclr => 0

/-- Everything a primitive command can do. -/
theorem exec_primitive {i : Instr} (h : i.isPrimitive = true) (s : State) :
    exec i s = .next (s.setRes (primitiveResult s i)).succeed := by
  cases i <;> first | rfl | simp [Instr.isPrimitive] at h

/-- The errors a command can raise (60_exceptions.md R281). -/
def raises (i : Instr) (s : State) (code : ErrorCode) : Prop :=
  match i with
  | .keyexp _ => code = .keyLength ∨ code = .keyBounds
  | .crypt => (code = .noKey ∧ s.kv = false) ∨ code = .inBounds ∨ code = .outBounds
  | .nop | .kclr | .eclr | .tau | .lkey | .tkey | .ldif | .tslow | .tfast | .tbl => False

/-- Everything a command can do: raise one of its errors, or have its effect. -/
theorem exec_cases {i : Instr} {s t : State} (h : exec i s = .next t) :
    (∃ code, raises i s code ∧ code ≠ .ok ∧ t = s.raiseError code) ∨
    (i = .nop ∧ t = s.succeed) ∨ (i = .kclr ∧ t = s.clearKey.succeed) ∨ (i = .eclr ∧ t = s.clearErrors) ∨
    (i.isPrimitive = true ∧ t = (s.setRes (primitiveResult s i)).succeed) ∨
    (∃ d, i = .keyexp d ∧ s.keyLen = 16 ∧ s.keyOff.toNat + 16 ≤ s.cfg.bufBytes ∧
      t = ((s.afterRead s.keyOff.toNat 16).installKey (keySchedule (s.memRead s.keyOff.toNat 16) d) d).succeed) ∨
    (i = .crypt ∧ s.kv = true ∧ s.inOff.toNat + 16 ≤ s.cfg.bufBytes ∧ s.outOff.toNat + 16 ≤ s.cfg.bufBytes ∧
      t = ((s.afterRead s.inOff.toNat 16).memWrite s.outOff.toNat
        (blockTransform s.rk (s.memRead s.inOff.toNat 16))).succeed) := by
  have conv : ∀ {u v : State}, Host.Outcome.next (φ := Fault) (ρ := Refusal) u = .next v → v = u := by
    intro u v e; cases e; rfl
  by_cases hp : i.isPrimitive = true
  · rw [exec_primitive hp] at h
    exact .inr (.inr (.inr (.inr (.inl ⟨hp, conv h⟩))))
  · match i, hp, h with
    | .nop, _, h => exact .inr (.inl ⟨rfl, conv h⟩)
    | .kclr, _, h => exact .inr (.inr (.inl ⟨rfl, conv h⟩))
    | .eclr, _, h => exact .inr (.inr (.inr (.inl ⟨rfl, conv h⟩)))
    | .keyexp d, _, h =>
      rcases exec_keyexp_cases d s with ⟨_, e⟩ | ⟨_, _, e⟩ | ⟨hl, hf, e⟩ <;> rw [e] at h
      · exact .inl ⟨.keyLength, .inl rfl, by simp, conv h⟩
      · exact .inl ⟨.keyBounds, .inr rfl, by simp, conv h⟩
      · exact .inr (.inr (.inr (.inr (.inr (.inl ⟨d, rfl, hl, (windowFits_iff _ _).1 hf, conv h⟩)))))
    | .crypt, _, h =>
      rcases exec_crypt_cases s with ⟨hk, e⟩ | ⟨_, _, e⟩ | ⟨_, _, _, e⟩ | ⟨hk, hi, ho, e⟩ <;> rw [e] at h
      · exact .inl ⟨.noKey, .inl ⟨rfl, hk⟩, by simp, conv h⟩
      · exact .inl ⟨.inBounds, .inr (.inl rfl), by simp, conv h⟩
      · exact .inl ⟨.outBounds, .inr (.inr rfl), by simp, conv h⟩
      · exact .inr (.inr (.inr (.inr (.inr (.inr
          ⟨rfl, hk, (windowFits_iff _ _).1 hi, (windowFits_iff _ _).1 ho, conv h⟩)))))

/-- Every command answers a next state. -/
theorem exec_next (i : Instr) (s : State) : ∃ t, exec i s = .next t := by
  by_cases hp : i.isPrimitive = true
  · exact ⟨_, exec_primitive hp s⟩
  · match i, hp with
    | .nop, _ => exact ⟨_, rfl⟩
    | .kclr, _ => exact ⟨_, rfl⟩
    | .eclr, _ => exact ⟨_, rfl⟩
    | .keyexp d, _ => rcases exec_keyexp_cases d s with ⟨_, e⟩ | ⟨_, _, e⟩ | ⟨_, _, e⟩ <;> exact ⟨_, e⟩
    | .crypt, _ => rcases exec_crypt_cases s with ⟨_, e⟩ | ⟨_, _, e⟩ | ⟨_, _, _, e⟩ | ⟨_, _, _, e⟩ <;> exact ⟨_, e⟩

/-! ## The bus -/

/-- A well-formed transaction is a 32-bit one at an aligned offset. -/
theorem wf_iff (t : Transaction) : t.wf = true ↔ t.width = .four ∧ t.offset.toNat % 4 = 0 := by
  simp [Transaction.wf]

/-- Everything that can stand at an offset. -/
theorem placeAt_cases (c : Config) (o : Offset) :
    (o.toNat < 0x080 ∧ placeAt c o = (ctlAt o.toNat).map Place.ctl) ∨
    (∃ h : 0x080 ≤ o.toNat ∧ o.toNat < 0x100, placeAt c o = some (.rk ⟨(o.toNat - 0x080) / 4, by omega⟩)) ∨
    (0x100 ≤ o.toNat ∧ o.toNat < 0x100 + c.bufBytes ∧ placeAt c o = some (.buf (o.toNat - 0x100))) ∨
    (0x100 + c.bufBytes ≤ o.toNat ∧ 0x100 ≤ o.toNat ∧ placeAt c o = none) := by
  by_cases h1 : o.toNat < 0x080
  · exact .inl ⟨h1, by simp [placeAt, h1]⟩
  · by_cases h2 : o.toNat < 0x100
    · exact .inr (.inl ⟨⟨by omega, h2⟩, by simp [placeAt, h1, h2]⟩)
    · by_cases h3 : o.toNat < 0x100 + c.bufBytes
      · exact .inr (.inr (.inl ⟨by omega, h3, by simp [placeAt, h1, h2, h3]⟩))
      · exact .inr (.inr (.inr ⟨by omega, by omega, by simp [placeAt, h1, h2, h3]⟩))

theorem placeAt_ctlOffset (c : Config) (r : CtlReg) : placeAt c (ctlOffset r) = some (.ctl r) := by
  cases r <;> rfl

/-- Everything a bus read can do: it answers, and a window read of an UNWRITTEN byte also sets the mark. -/
theorem busRead_cases (s : State) (o : Offset) (w : Width) :
    (∃ r, s.busRead o w = s.respond r) ∨
    (w = .four ∧ o.toNat % 4 = 0 ∧ ∃ k, placeAt s.cfg o = some (.buf k) ∧ s.windowWord k = none ∧
      s.busRead o w = s.markModelFault.respond .modelFault) := by
  unfold State.busRead
  split
  · exact .inl ⟨_, rfl⟩
  · rename_i hwf
    have hw : w = .four ∧ o.toNat % 4 = 0 := by
      simpa [Transaction.wf, Transaction.width, Transaction.offset] using hwf
    split
    · exact .inl ⟨_, rfl⟩
    · exact .inl ⟨_, rfl⟩
    · exact .inl ⟨_, rfl⟩
    · rename_i k hk
      split
      · exact .inl ⟨_, rfl⟩
      · exact .inr ⟨hw.1, hw.2, k, hk, ‹_›, rfl⟩

/-- Everything a bus write can do. -/
theorem busWrite_cases (s : State) (o : Offset) (w : Width) (d : Word) :
    (∃ r, s.busWrite o w d = .next (s.respond r)) ∨
    (w = .four ∧ placeAt s.cfg o = some (.ctl .cmd) ∧
      s.busWrite o w d = onNext (issueCommand d s) (fun t => t.respond .ok)) ∨
    (∃ r, r ≠ .cmd ∧ placeAt s.cfg o = some (.ctl r) ∧ s.busWrite o w d = .next ((s.writeCtl r d).respond .ok)) ∨
    (o.toNat % 4 = 0 ∧ ∃ k, placeAt s.cfg o = some (.buf k) ∧
      s.busWrite o w d = .next ((s.memWrite k (unbe32 d)).respond .ok)) := by
  unfold State.busWrite
  split
  · exact .inl ⟨_, rfl⟩
  · rename_i hwf
    have hw : w = .four ∧ o.toNat % 4 = 0 := by
      simpa [Transaction.wf, Transaction.width, Transaction.offset] using hwf
    split
    · exact .inl ⟨_, rfl⟩
    · exact .inr (.inl ⟨hw.1, ‹_›, rfl⟩)
    · rename_i r hr hp
      exact .inr (.inr (.inl ⟨r, hr, hp, rfl⟩))
    · exact .inl ⟨_, rfl⟩
    · exact .inr (.inr (.inr ⟨hw.2, _, ‹_›, rfl⟩))

/-- A write of the command word to CMD issues it and answers ok. -/
theorem hostEvent_cmdWrite (c : Word) (s : State) :
    hostEvent (cmdWrite c) s = onNext (issueCommand c s) (fun t => t.respond .ok) := by
  have hwf : (Transaction.write (ctlOffset .cmd) .four c).wf = true := (wf_iff _).2 ⟨rfl, by simp [Transaction.offset, ctlOffset]⟩
  simp only [cmdWrite, hostEvent, State.busWrite, hwf, placeAt_ctlOffset, not_true_eq_false, if_false]

/-- What follows a step that answered a next state. -/
theorem onNext_eq_next {o : Host.Outcome State Fault Refusal} {f : State → State} {t : State}
    (h : onNext o f = .next t) : ∃ u, o = .next u ∧ t = f u := by
  cases o with
  | next u => exact ⟨u, rfl, by simpa [onNext, eq_comm] using h⟩
  | fault r => exact absurd h (by simp [onNext])
  | refused r => exact absurd h (by simp [onNext])

end Sys2Proof.Machine
end

