-- ==== Sys2Proof/Laws/PerInstr.lean ====
section
/-!
SUPPORT. Statements made per command: the family `TableRow` says that the command's word is selected by a row of the opcode
table, decodes to the command, and has a zero RSV field.
-/

namespace Sys2Proof.Laws.TableRow

/-- The word of `i` is selected by one row, which is `i`'s with D = 0, decodes to `i`, and has RSV = 0. -/
def Statement (i : Instr) : Prop :=
  i.wf = true ∧ rsvField (encode i) = 0 ∧ opField (encode i) = opcode i ∧ decode (encode i) = .ok i ∧
  (opcodeRows.filter fun r => r.selects (encode i)).map (·.instr) = [i.withDirection .encrypt]

theorem nop : Statement .nop := by unfold Statement; decide
theorem keyexp (d : Direction) : Statement (.keyexp d) := by cases d <;> (unfold Statement; decide)
theorem crypt : Statement .crypt := by unfold Statement; decide
theorem kclr : Statement .kclr := by unfold Statement; decide
theorem eclr : Statement .eclr := by unfold Statement; decide
theorem tau : Statement .tau := by unfold Statement; decide
theorem lkey : Statement .lkey := by unfold Statement; decide
theorem tkey : Statement .tkey := by unfold Statement; decide
theorem ldif : Statement .ldif := by unfold Statement; decide
theorem tslow : Statement .tslow := by unfold Statement; decide
theorem tfast : Statement .tfast := by unfold Statement; decide
theorem tbl : Statement .tbl := by unfold Statement; decide

end Sys2Proof.Laws.TableRow
end

