-- ==== Sys2Proof/Laws/Step.lean ====
section
/-!
SUPPORT. What one step can do, said once; and that no command reads or writes the host's side of the bus.
-/

namespace Sys2Proof.Machine

/-- `s` with another host's side: other events pending, other responses given. -/
def State.withHost (s : State) (p : List HostEvent) (r : List Response) : State := { s with pending := p, responses := r }

theorem withHost_self (s : State) : s.withHost s.pending s.responses = s := rfl

theorem withHost_withHost (s : State) (p q : List HostEvent) (r u : List Response) :
    (s.withHost p r).withHost q u = s.withHost q u := rfl

theorem afterRead_withHost (s : State) (p : List HostEvent) (r : List Response) (a n : Nat) :
    (s.withHost p r).afterRead a n = (s.afterRead a n).withHost p r := by
  have hw : (s.withHost p r).written a n = s.written a n := rfl
  unfold State.afterRead
  rw [hw]
  cases s.written a n <;> rfl

section
variable (s : State) (p : List HostEvent) (r : List Response)

@[simp] theorem windowFits_withHost (off : Word) : (s.withHost p r).windowFits off = s.windowFits off := rfl
@[simp] theorem memRead_withHost (a n : Nat) : (s.withHost p r).memRead a n = s.memRead a n := rfl
@[simp] theorem memWrite_withHost {n : Nat} (a : Nat) (v : Vector Byte n) :
    (s.withHost p r).memWrite a v = (s.memWrite a v).withHost p r := rfl
@[simp] theorem succeed_withHost : (s.withHost p r).succeed = s.succeed.withHost p r := rfl
@[simp] theorem raiseError_withHost (c : ErrorCode) : (s.withHost p r).raiseError c = (s.raiseError c).withHost p r := rfl
@[simp] theorem installKey_withHost (k : Vector Word 32) (d : Direction) :
    (s.withHost p r).installKey k d = (s.installKey k d).withHost p r := rfl
@[simp] theorem withHost_rk : (s.withHost p r).rk = s.rk := rfl
@[simp] theorem withHost_kv : (s.withHost p r).kv = s.kv := rfl
@[simp] theorem withHost_keyOff : (s.withHost p r).keyOff = s.keyOff := rfl
@[simp] theorem withHost_keyLen : (s.withHost p r).keyLen = s.keyLen := rfl
@[simp] theorem withHost_inOff : (s.withHost p r).inOff = s.inOff := rfl
@[simp] theorem withHost_outOff : (s.withHost p r).outOff = s.outOff := rfl

/-- A command does the same whatever the host's side of the bus holds, and leaves it as it is. -/
theorem exec_withHost (i : Instr) : exec i (s.withHost p r) = onNext (exec i s) (fun t => t.withHost p r) := by
  cases i
  case keyexp d =>
    rcases exec_keyexp_cases d s with ⟨h, e⟩ | ⟨h, hf, e⟩ | ⟨h, hf, e⟩ <;> rw [e]
    · exact if_pos h
    · simp only [exec, execKeyexp, withHost_keyLen, withHost_keyOff, windowFits_withHost, h, hf]; rfl
    · simp only [exec, execKeyexp, withHost_keyLen, withHost_keyOff, windowFits_withHost, memRead_withHost, h, hf,
        afterRead_withHost, installKey_withHost, succeed_withHost, ne_eq, not_true_eq_false, if_false, onNext]
  case crypt =>
    rcases exec_crypt_cases s with ⟨h, e⟩ | ⟨h, hi, e⟩ | ⟨h, hi, ho, e⟩ | ⟨h, hi, ho, e⟩ <;> rw [e]
    · simp only [exec, execCrypt, withHost_kv, h]; rfl
    · simp only [exec, execCrypt, withHost_kv, withHost_inOff, windowFits_withHost, h, hi]; rfl
    · simp only [exec, execCrypt, withHost_kv, withHost_inOff, withHost_outOff, windowFits_withHost, h, hi, ho]; rfl
    · simp only [exec, execCrypt, withHost_kv, withHost_inOff, withHost_outOff, withHost_rk, windowFits_withHost,
        memRead_withHost, afterRead_withHost, memWrite_withHost, succeed_withHost, h, hi, ho, not_true_eq_false, if_false,
        onNext]
  all_goals rfl

end

/-- Issuing a command word does the same whatever the host's side of the bus holds. -/
theorem issueCommand_withHost (c : Word) (s : State) (p : List HostEvent) (r : List Response) :
    issueCommand c (s.withHost p r) = onNext (issueCommand c s) (fun t => t.withHost p r) := by
  unfold issueCommand
  cases decode c with
  | ok i => exact exec_withHost s p r i
  | error e => rfl

/-- CMD stands at one offset only. -/
theorem ctlAt_eq_some {n : Nat} {r : CtlReg} (h : ctlAt n = some r) : n = (ctlOffset r).toNat := by
  unfold ctlAt at h
  split at h <;> first | (cases h; rfl) | simp at h

theorem placeAt_eq_ctl {c : Config} {o : Offset} {r : CtlReg} (h : placeAt c o = some (.ctl r)) : o = ctlOffset r := by
  rcases placeAt_cases c o with ⟨_, e⟩ | ⟨_, e⟩ | ⟨_, _, e⟩ | ⟨_, _, e⟩ <;> rw [h] at e
  · cases hc : ctlAt o.toNat with
    | none => simp [hc] at e
    | some q =>
      have hq : r = q := by simpa [hc] using e
      exact BitVec.eq_of_toNat_eq (hq ▸ ctlAt_eq_some hc)
  · simp at e
  · simp at e
  · simp at e

theorem placeAt_eq_buf {c : Config} {o : Offset} {k : Nat} (h : placeAt c o = some (.buf k)) :
    o.toNat = 0x100 + k ∧ k < c.bufBytes := by
  rcases placeAt_cases c o with ⟨_, e⟩ | ⟨_, e⟩ | ⟨_, _, e⟩ | ⟨_, _, e⟩ <;> rw [h] at e
  · cases hc : ctlAt o.toNat <;> simp [hc] at e
  · simp at e
  · have : k = o.toNat - 0x100 := by simpa using e
    omega
  · simp at e

/-- Everything one step can do, by the event it takes. -/
theorem step_cases {s t : State} (h : step s = .next t) :
    (s.pending = [] ∧ t = s) ∨
    ∃ e rest, s.pending = e :: rest ∧
      ((e = .reset ∧ t = ({ s with pending := rest } : State).applyReset) ∨
       (∃ c, e = .resetDuring c ∧ t = ({ s with pending := rest } : State).applyReset.respond .abandoned) ∨
       (∃ tr r, e = .bus tr ∧ r ≠ .abandoned ∧ t = ({ s with pending := rest } : State).respond r) ∨
       (∃ o k, e = .bus (.read o .four) ∧ o.toNat % 4 = 0 ∧ o.toNat = 0x100 + k ∧ k < s.cfg.bufBytes ∧
          s.windowWord k = none ∧ t = ({ s with pending := rest } : State).markModelFault.respond .modelFault) ∨
       (∃ c u, e = cmdWrite c ∧ issueCommand c { s with pending := rest } = .next u ∧ t = u.respond .ok) ∨
       (∃ r w, r ≠ .cmd ∧ e = .bus (.write (ctlOffset r) .four w) ∧
          t = (({ s with pending := rest } : State).writeCtl r w).respond .ok) ∨
       (∃ o k w, e = .bus (.write o .four w) ∧ o.toNat % 4 = 0 ∧ o.toNat = 0x100 + k ∧ k < s.cfg.bufBytes ∧
          t = (({ s with pending := rest } : State).memWrite k (unbe32 w)).respond .ok)) := by
  cases hp : s.pending with
  | nil => exact .inl ⟨rfl, by simpa [step, takeEvent, hp, eq_comm] using h⟩
  | cons e rest =>
    refine .inr ⟨e, rest, rfl, ?_⟩
    simp only [step, takeEvent, hp] at h
    match e, h with
    | .reset, h => exact .inl ⟨rfl, by simpa [hostEvent, eq_comm] using h⟩
    | .resetDuring c, h => exact .inr (.inl ⟨c, rfl, by simpa [hostEvent, eq_comm] using h⟩)
    | .bus (.read o w), h =>
      simp only [hostEvent, State.busRead] at h
      split at h
      · cases h; exact .inr (.inr (.inl ⟨_, .busError, rfl, by simp, rfl⟩))
      · rename_i hwf
        obtain ⟨hw, ho⟩ : w = .four ∧ o.toNat % 4 = 0 := by
          simpa [Transaction.wf, Transaction.width, Transaction.offset] using hwf
        split at h
        · cases h; exact .inr (.inr (.inl ⟨_, .busError, rfl, by simp, rfl⟩))
        · cases h; exact .inr (.inr (.inl ⟨_, .okData _, rfl, by simp, rfl⟩))
        · cases h; exact .inr (.inr (.inl ⟨_, .okData _, rfl, by simp, rfl⟩))
        · rename_i k hk
          split at h
          · cases h; exact .inr (.inr (.inl ⟨_, .okData _, rfl, by simp, rfl⟩))
          · rename_i hn
            cases h; subst hw
            have hb := placeAt_eq_buf hk
            exact .inr (.inr (.inr (.inl ⟨o, k, rfl, ho, hb.1, hb.2, hn, rfl⟩)))
    | .bus (.write o w d), h =>
      simp only [hostEvent, State.busWrite] at h
      split at h
      · cases h; exact .inr (.inr (.inl ⟨_, .busError, rfl, by simp, rfl⟩))
      · rename_i hwf
        obtain ⟨hw, ho⟩ : w = .four ∧ o.toNat % 4 = 0 := by
          simpa [Transaction.wf, Transaction.width, Transaction.offset] using hwf
        subst hw
        split at h
        · cases h; exact .inr (.inr (.inl ⟨_, .busError, rfl, by simp, rfl⟩))
        · rename_i hk
          obtain ⟨u, hu, rfl⟩ := onNext_eq_next h
          obtain rfl := placeAt_eq_ctl hk
          exact .inr (.inr (.inr (.inr (.inl ⟨d, u, rfl, hu, rfl⟩))))
        · rename_i r hr hk
          obtain rfl := placeAt_eq_ctl hk
          cases h
          exact .inr (.inr (.inr (.inr (.inr (.inl ⟨r, d, hr, rfl, rfl⟩)))))
        · cases h; exact .inr (.inr (.inl ⟨_, .ok, rfl, by simp, rfl⟩))
        · rename_i k hk
          cases h
          have hb := placeAt_eq_buf hk
          exact .inr (.inr (.inr (.inr (.inr (.inr ⟨o, k, d, rfl, ho, hb.1, hb.2, rfl⟩)))))

end Sys2Proof.Machine
end

