-- ==== Sys2Proof/Tests/Slice0.lean ====
section
/-!
SUPPORT. The model's own tests. Every expected value is from spec/95_test_vectors.md (table or section in each comment) or
from the example or corner case of the rule named. Each test runs at most one step.
-/

-- One theorem at a time: elaborated side by side, the theorems of this file ask for more memory than the check gives.
set_option Elab.async false

namespace Sys2Proof.Tests

open Sys2Proof.Machine

/-! ## Helpers -/

/-- The state an outcome goes on in, if it does. -/
def nextState : Host.Outcome State Fault Refusal → Option State
  | .next s => some s
  | .fault _ => none
  | .refused _ => none

/-- One field of the state an outcome goes on in. -/
def after {α : Type} (o : Host.Outcome State Fault Refusal) (f : State → α) : Option α := (nextState o).map f

/-- The standard key of 95: 0123456789ABCDEFFEDCBA9876543210. -/
def standardKey : Vector Byte 16 :=
  #v[0x01, 0x23, 0x45, 0x67, 0x89, 0xAB, 0xCD, 0xEF, 0xFE, 0xDC, 0xBA, 0x98, 0x76, 0x54, 0x32, 0x10]

/-- The ciphertext of 95 V-CR row 1: 681EDF34D206965E86B3E94F536E4246. -/
def standardCipher : Vector Byte 16 :=
  #v[0x68, 0x1E, 0xDF, 0x34, 0xD2, 0x06, 0x96, 0x5E, 0x86, 0xB3, 0xE9, 0x4F, 0x53, 0x6E, 0x42, 0x46]

/-- After reset, with a block at BUF[a] and KEY_LEN = 16. -/
def withBlock (a : Nat) (v : Vector Byte 16) : State := { State.reset.memWrite a v with keyLen := 16 }

/-- Holding the schedule of the standard key. -/
def keyed (s : State) (d : Direction) : State := s.installKey (keySchedule standardKey d) d

/-- After reset, with ARG = a. -/
def withArg (a : Word) : State := { State.reset with arg := a }

/-- A step that takes one event from a state whose host is idle. -/
def onEvent (s : State) (e : HostEvent) : Host.Outcome State Fault Refusal := step (s.present e)

def readAt (o : Offset) (w : Width) : HostEvent := .bus (.read o w)
def writeAt (o : Offset) (w : Width) (d : Word) : HostEvent := .bus (.write o w d)

/-! ## Well-formedness: an ill-formed term for each check -/

theorem smoke_config_multiple : ¬ (Config.mk 18).legal := by decide
theorem smoke_config_small : ¬ (Config.mk 12).legal := by decide
theorem smoke_config_large : ¬ (Config.mk 3844).legal := by decide
theorem smoke_config_default : Config.default.legal ∧ (Config.mk 16).legal ∧ (Config.mk 3840).legal := by decide
theorem smoke_transaction_width : (Transaction.read 0x004 .two).wf = false := by decide
theorem smoke_transaction_align : (Transaction.write 0x011 .four 1).wf = false := by decide
theorem smoke_reg_rk : HostReg.wf Config.default (.rk 32) = false ∧ HostReg.wf Config.default (.rk 31) = true := by decide
theorem smoke_reg_buf :
    HostReg.wf Config.default (.buf 2) = false ∧ HostReg.wf Config.default (.buf 256) = false ∧
    HostReg.wf Config.default (.buf 252) = true := by decide
theorem smoke_stmt_wrbuf :
    HostStmt.wf Config.default (.wrbuf 244 standardKey) = false ∧
    HostStmt.wf Config.default (.wrbuf 240 standardKey) = true := by decide
theorem smoke_stmt_prim :
    HostStmt.wf Config.default (.prim .crypt 0) = false ∧ HostStmt.wf Config.default (.prim .tbl 0) = true := by decide
theorem smoke_instr : Instr.wf (.keyexp .decrypt) = true := by decide

/-! ## Decoding: words written out bit by bit (30_encoding.md R110, R112): RSV, D, OP -/

theorem test_decode_bits_nop : decode 0b00000000000000000000000_0_00000000 = .ok .nop := by decide
theorem test_decode_bits_keyexp_d : decode 0b00000000000000000000000_1_00000001 = .ok (.keyexp .decrypt) := by decide
theorem test_decode_bits_crypt : decode 0b00000000000000000000000_0_00000010 = .ok .crypt := by decide
theorem test_decode_bits_tkey : decode 0b00000000000000000000000_0_00010010 = .ok .tkey := by decide
theorem test_decode_bits_tbl : decode 0b00000000000000000000000_0_00100011 = .ok .tbl := by decide

/-- 95 §3.6: the illegal words. -/
theorem test_decode_illegal :
    decode 0x00000100 = .error .directionBit ∧ decode 0x00000102 = .error .directionBit ∧
    decode 0x00000201 = .error .reservedBits ∧ decode 0x01000001 = .error .reservedBits ∧
    decode 0xFFFFFFFF = .error .reservedBits ∧ decode 0x00000005 = .error .unassignedOp ∧
    decode 0x00000024 = .error .unassignedOp ∧ decode 0x000000FF = .error .unassignedOp := by decide

theorem test_encode_keyexp : encode (.keyexp .encrypt) = 0x00000001 ∧ encode (.keyexp .decrypt) = 0x00000101 := by decide
theorem test_decodeTableWord : decodeTableWord 32 0x101 = some (.keyexp .decrypt) ∧ decodeTableWord 32 0x100 = none := by
  decide

/-! ## Tables (40_constants.md; 95 §3.1) -/

theorem test_sbox : sbox 0x00 = 0xD6 ∧ sbox 0x01 = 0x90 ∧ sbox 0x80 = 0xEA ∧ sbox 0xD6 = 0x7B ∧ sbox 0xFF = 0x48 := by
  decide
theorem test_mixTable :  -- R147's sample rows
    mixTable 0 0x7F = 0xE69C7A7A ∧ mixTable 1 0x10 = 0xAC872BAC ∧ mixTable 2 0xFE = 0xE4E4DD39 ∧
    mixTable 3 0x80 = 0xE9ABAB42 := by decide
/-- The ROM holds what the Table Generator produces (R144), for every table and byte. -/
theorem test_generated : ∀ (j : BitVec 2) (b : Byte), mixTable j b = generatedEntry j b := by decide +kernel
/-- R140: 256 entries, and every byte value among them: S is a bijection. -/
theorem test_sbox_all_values :
    sboxRows.flatten.length = 256 ∧ sboxRows.flatten.foldl (fun m b => m ||| 1 <<< b.toNat) 0 = 2 ^ 256 - 1 := by
  decide +kernel
/-- R143's formula gives the table. -/
theorem test_roundConstants : ∀ i : Fin 32, ∀ k : Fin 4,
    byteAt (roundConstant i) k = BitVec.ofNat 8 ((4 * i.val + k.val) * 7) := by decide +kernel

/-! ## Commands -/

/-- 95 §3.6: NOP on STATUS 0000003A gives 0000000A. -/
theorem test_nop :
    after (exec .nop ((keyed State.reset .encrypt).raiseError .inBounds)) State.statusWord = some 0x0000000A := by
  decide +kernel
/-- 95 §3.6: ECLR on STATUS 0000001A gives 00000002. -/
theorem test_eclr :
    after (exec .eclr ((keyed State.reset .encrypt).raiseError .keyLength)) State.statusWord = some 0x00000002 := by
  decide +kernel
/-- 95 §3.6: KCLR on STATUS 0000000E gives 00000008 and RK = 0. -/
theorem test_kclr :
    after (exec .kclr { keyed State.reset .decrypt with err := true }) (fun t => (t.statusWord, t.rk)) =
      some (0x00000008, Vector.replicate 32 0) := by decide +kernel
/-- 95 Table V-RKE: RK[0], RK[1], RK[30], RK[31] and STATUS after KEYEXP.E of the standard key. -/
theorem test_keyexp_encrypt :
    after (exec (.keyexp .encrypt) (withBlock 0 standardKey)) (fun t => [t.rk[0], t.rk[1], t.rk[30], t.rk[31], t.statusWord]) =
      some [0xF12186F9, 0x41662B61, 0x01CF72E5, 0x9124A012, 0x00000002] := by decide +kernel
/-- 95 Table V-RKD, and §3.3: at the edge KEY_OFF = BUF_BYTES - 16, KEYEXP.D. -/
theorem test_keyexp_decrypt :
    after (exec (.keyexp .decrypt) { withBlock 240 standardKey with keyOff := 0xF0 })
        (fun t => [t.rk[0], t.rk[15], t.rk[31], t.statusWord]) =
      some [0x9124A012, 0xD120B428, 0xF12186F9, 0x00000006] := by decide +kernel
/-- 95 Table V-CR row 1 at the edge offsets: the output stands at OUT_OFF, STATUS is 00000002. -/
theorem test_crypt_encrypt :
    after (exec .crypt { keyed (withBlock 240 standardKey) .encrypt with inOff := 0xF0, outOff := 0x00 })
        (fun t => (t.memRead 0 16, t.statusWord)) = some (standardCipher, 0x00000002) := by decide +kernel
/-- 95 program 2: unaligned, partially overlapping windows, decrypt; the bytes before the output window stay. -/
theorem test_crypt_overlap :
    after (exec .crypt { keyed (withBlock 0x41 standardCipher) .decrypt with inOff := 0x41, outOff := 0x43 })
        (fun t => (t.memRead 0x43 16, t.memRead 0x41 2)) = some (standardKey, #v[0x68, 0x1E]) := by decide +kernel
/-- 95 §3.2 row 01234567, and R171's corner case. -/
theorem test_tau : after (exec .tau (withArg 0x01234567)) State.res = some 0x90F473A2 := by decide +kernel
theorem test_tau_ones : after (exec .tau (withArg 0xFFFFFFFF)) State.res = some 0x48484848 := by decide +kernel
theorem test_lkey : after (exec .lkey (withArg 0x80000000)) State.res = some 0x80401000 := by decide +kernel
theorem test_lkey_dead : after (exec .lkey (withArg 0xDEADBEEF)) State.res = some 0x1E9F13E5 := by decide +kernel
theorem test_tkey : after (exec .tkey (withArg 0x01234567)) State.res = some 0xCFC85B85 := by decide +kernel
theorem test_tkey_4a : after (exec .tkey (withArg 0x4A2A2C82)) State.res = some 0x84A4AFFD := by decide +kernel
/-- 95 Table V-T. -/
theorem test_ldif : after (exec .ldif (withArg 0x80000000)) State.res = some 0x80820202 := by decide +kernel
theorem test_ldif_f0 : after (exec .ldif (withArg 0xF002C39E)) State.res = some 0xAB8C74ED := by decide +kernel
theorem test_tslow : after (exec .tslow (withArg 0xDEADBEEF)) State.res = some 0xC2D6A551 := by decide +kernel
theorem test_tslow_one : after (exec .tslow (withArg 0x00000001)) State.res = some 0x1C424205 := by decide +kernel
theorem test_tfast : after (exec .tfast (withArg 0xDEADBEEF)) State.res = some 0xC2D6A551 := by decide +kernel
theorem test_tfast_one : after (exec .tfast (withArg 0x00000001)) State.res = some 0x1C424205 := by decide +kernel
/-- 95 Table V-TBL: ARG[31:10] is ignored. -/
theorem test_tbl : after (exec .tbl (withArg 0x000001D6)) State.res = some 0xED977AED := by decide +kernel
theorem test_tbl_high_bits : after (exec .tbl (withArg 0xFFFFFC00)) State.res = some 0x8ED55B5B := by decide +kernel

/-! ## Errors (95 Tables V-KE and V-CE) -/

theorem test_key_length :
    after (exec (.keyexp .encrypt) { keyed State.reset .encrypt with keyLen := 0x0F, keyOff := 0xF1 }) State.statusWord =
      some 0x0000001A := by decide +kernel
theorem test_key_bounds_no_wrap :
    after (exec (.keyexp .encrypt) { keyed State.reset .encrypt with keyLen := 0x10, keyOff := 0xFFFFFFF8 })
      State.statusWord = some 0x0000002A := by decide +kernel
theorem test_no_key_first :
    after (exec .crypt { State.reset with inOff := 0xF1, outOff := 0xF1 }) State.statusWord = some 0x00000058 := by
  decide +kernel
theorem test_in_bounds :
    after (exec .crypt { keyed State.reset .encrypt with inOff := 0xF1, outOff := 0xF1 }) State.statusWord =
      some 0x0000003A := by decide +kernel
theorem test_out_bounds_no_wrap :
    after (exec .crypt { keyed (withBlock 0 standardKey) .encrypt with outOff := 0xFFFFFFF0 }) State.statusWord =
      some 0x0000004A := by decide +kernel

/-! ## The bus (95 §3.7) and events -/

theorem test_read_id : after (onEvent State.reset (readAt 0x000 .four)) State.responses = some [.okData 0x534D3401] := by
  decide +kernel
theorem test_read_cmd_bufsize :
    after (onEvent State.reset (readAt 0x008 .four)) State.responses = some [.okData 0] ∧
    after (onEvent State.reset (readAt 0x00C .four)) State.responses = some [.okData 0x00000100] := by decide +kernel
theorem test_read_narrow_and_misaligned :
    after (onEvent State.reset (readAt 0x004 .two)) (fun t => (t.responses, t.err)) = some ([.busError], false) ∧
    after (onEvent State.reset (readAt 0x006 .four)) (fun t => (t.responses, t.err)) = some ([.busError], false) := by
  decide +kernel
theorem test_reserved :
    after (onEvent State.reset (readAt 0x028 .four)) State.responses = some [.busError] ∧
    after (onEvent State.reset (writeAt 0x07C .four 0x12345678)) State.responses = some [.busError] ∧
    after (onEvent State.reset (readAt 0x200 .four)) State.responses = some [.busError] ∧
    after (onEvent State.reset (readAt 0xFFC .four)) State.responses = some [.busError] := by decide +kernel
theorem test_write_read_only :
    after (onEvent State.reset (writeAt 0x024 .four 0xDEADBEEF)) (fun t => (t.responses, t.res)) = some ([.ok], 0) ∧
    after (onEvent State.reset (writeAt 0x080 .four 0x11111111)) (fun t => (t.responses, t.rk[0])) = some ([.ok], 0) := by
  decide +kernel
theorem test_write_window :
    after (onEvent State.reset (writeAt 0x1FC .four 0xAABBCCDD)) (fun t => (t.responses, t.buf)) =
      some ([.ok], [(0xFC, 0xAA), (0xFD, 0xBB), (0xFE, 0xCC), (0xFF, 0xDD)]) := by decide +kernel
theorem test_read_window :
    after (onEvent (State.reset.memWrite 0 (unbe32 0x01020304)) (readAt 0x100 .four)) State.responses =
      some [.okData 0x01020304] := by decide +kernel
/-- 95 program 6, line 6: a read of an UNWRITTEN window word is a model fault. -/
theorem test_read_unwritten :
    after (onEvent (State.reset.memWrite 0 (unbe32 0x01020304)) (readAt 0x104 .four)) (fun t => (t.responses, t.modelFault)) =
      some ([.modelFault], true) := by decide +kernel
theorem test_read_rk31 :
    after (onEvent (keyed State.reset .encrypt) (readAt 0x0FC .four)) State.responses = some [.okData 0x9124A012] := by
  decide +kernel
/-- 95 program 3, lines 13 and 14: an illegal word. -/
theorem test_illegal_word :
    after (step (State.reset.withFetchWord 32 0x100)) (fun t => (t.responses, t.statusWord)) = some ([.ok], 0x00000068) := by
  decide +kernel
/-- 95 program 3, lines 1 and 2: CRYPT as the first command after reset. -/
theorem test_first_command :
    after (step (State.reset.withFetchWord 32 0x002)) (fun t => (t.responses, t.statusWord)) = some ([.ok], 0x00000058) := by
  decide +kernel
/-- 70 R310: reset during a command. -/
theorem test_reset_during :
    after (onEvent (keyed (withBlock 0 standardKey) .encrypt) (.resetDuring 2)) (fun t => (t.kv, t.buf, t.responses)) =
      some (false, [], [.abandoned]) := by decide +kernel

/-! ## Host programs (95 program 1, and R119) -/

theorem test_expand_wrbuf :
    expandStmt (.wrbuf 16 standardKey) =
      [.write 0x110 .four 0x01234567, .write 0x114 .four 0x89ABCDEF, .write 0x118 .four 0xFEDCBA98,
       .write 0x11C .four 0x76543210] := by decide +kernel
theorem test_expand_setkey : expandStmt (.setkey 0) = [.write 0x010 .four 0, .write 0x014 .four 0x10] := by decide
theorem test_expand_prim :
    expandStmt (.prim .tbl 0x1D6) = [.write 0x020 .four 0x1D6, .write 0x008 .four 0x23, .read 0x024 .four] := by decide
theorem test_expand_rk : expandStmt (.rd (.rk 31) none) = [.read 0x0FC .four] := by decide
theorem test_expectations :
    meetsExpectations [.cmd .nop, .rd (.ctl .status) (some 0)] [.ok, .okData 0] = true ∧
    meetsExpectations [.cmd .nop, .rd (.ctl .status) (some 0)] [.ok, .okData 2] = false := by decide

/-! ## Witnesses: for each statement with hypotheses, a state and operands that meet them (boundary values where the
statement has several clauses) -/

theorem next_getD {o : Host.Outcome State Fault Refusal} (d : State) (h : (nextState o).isSome = true) :
    o = .next ((nextState o).getD d) := by
  cases o <;> simp_all [nextState]

/-- The state `onEvent s e` goes on in. -/
def goesTo (s : State) (e : HostEvent) : State := (nextState (onEvent s e)).getD s

/-- The state `exec i s` goes on in. -/
def execTo (i : Instr) (s : State) : State := (nextState (exec i s)).getD s

/-- The standard key at BUF[240 ..), KEY_OFF = BUF_BYTES - 16, KEY_LEN = 16. -/
def keyAtEdge : State := { withBlock 240 standardKey with keyOff := 0xF0 }

/-- The standard block at BUF[240 ..) as input and output, under a valid schedule. -/
def blockAtEdge : State := { keyed (withBlock 240 standardKey) .encrypt with inOff := 0xF0, outOff := 0xF0 }

theorem witness_IllegalWords :
    (rsvField 0x00000201 ≠ 0) ∧ (dField 0x00000102 = .decrypt ∧ opField 0x00000102 ≠ 0x01) ∧
    opField 0x00000024 ∉ [0x00, 0x01, 0x02, 0x03, 0x04, 0x10, 0x11, 0x12, 0x20, 0x21, 0x22, 0x23] ∧
    IllegalWord 0x80000000 := by unfold IllegalWord; decide

theorem witness_StepRunsDecodedCommand :
    (∃ (s : State) (c : Word) (i : Instr), s.pending = cmdWrite c :: [] ∧ decode c = .ok i) ∧
    ∃ nbits w i, nbits ≤ 32 ∧ decodeTableWord nbits w = some i :=
  ⟨⟨State.reset.present (cmdWrite 0x101), 0x101, .keyexp .decrypt, rfl, by decide⟩, 32, 0x23, .tbl, by decide, by decide⟩

theorem witness_IdleCoreHoldsState : State.reset.pending = [] := rfl

theorem witness_NopWritesOnlyEcode : ((keyed State.reset .encrypt).raiseError .inBounds).statusWord = 0x0000003A := by
  decide +kernel

theorem witness_EclrClearsErrorRecord :
    ((keyed State.reset .encrypt).raiseError .keyLength).statusWord = 0x0000001A := by decide +kernel

theorem witness_KclrEndsKeyLifetime : ∃ t, exec .kclr blockAtEdge = .next t := ⟨_, rfl⟩

theorem witness_TblReadsMixingTable :
    (withArg 0x00000000).arg = 0 ∧ (withArg 0xFFFFFC00).arg = 0xFFFFFC00 ∧ (withArg 0x000003FF).arg = 0x000003FF ∧
    (withArg 0xFFFFFFFF).arg = 0xFFFFFFFF ∧ (withArg 0x000001D6).arg = 0x000001D6 := by decide

theorem witness_KeyexpStoresSchedule :
    keyAtEdge.keyLen = 16 ∧ Fits keyAtEdge keyAtEdge.keyOff ∧ HoldsBytes keyAtEdge keyAtEdge.keyOff.toNat standardKey := by
  unfold Fits HoldsBytes; decide +kernel

theorem witness_CryptWritesTransformedBlock :
    blockAtEdge.kv = true ∧ Fits blockAtEdge blockAtEdge.inOff ∧ Fits blockAtEdge blockAtEdge.outOff ∧
    HoldsBytes blockAtEdge blockAtEdge.inOff.toNat standardKey := by unfold Fits HoldsBytes; decide +kernel

theorem witness_ErrorsInPriorityOrder :
    (∀ i, encode i ≠ 0x00000100) ∧
    ({ State.reset with keyLen := 15 } : State).keyLen ≠ 16 ∧ ({ State.reset with keyLen := 17 } : State).keyLen ≠ 16 ∧
    (keyAtEdge.keyLen = 16 ∧ ¬ Fits keyAtEdge 0xF1) ∧ State.reset.kv = false ∧
    (blockAtEdge.kv = true ∧ ¬ Fits blockAtEdge 0xF1 ∧ ¬ Fits blockAtEdge 0xFFFFFFFF) ∧ Fits blockAtEdge 0xF0 ∧
    ((∀ d, Instr.nop ≠ .keyexp d) ∧ Instr.nop ≠ .crypt) := by
  refine ⟨fun i => by rcases i with _ | (_ | _) | _ | _ | _ | _ | _ | _ | _ | _ | _ | _ <;> decide, ?_⟩
  unfold Fits
  exact ⟨by decide, by decide, by decide, by decide, by decide, by decide, by simp, by simp⟩

theorem witness_KeyexpOverUnwritten :
    ∀ k : Fin 16, ({ State.reset with keyLen := 16 } : State).keyLen = 16 ∧ Fits State.reset 0xF0 ∧
      State.reset.buf.read (0xF0 + k) = none := by unfold Fits; decide

theorem witness_CryptOverUnwritten :
    (keyed State.reset .encrypt).kv = true ∧ Fits State.reset 0 ∧ State.reset.buf.read (0 + (15 : Fin 16)) = none := by
  unfold Fits; decide

theorem witness_FailedCommand :
    ∃ t, issueCommand 0x00000100 State.reset = .next t ∧ t.ecode ≠ .ok :=
  ⟨_, next_getD State.reset (by decide +kernel), by decide +kernel⟩

theorem witness_ErrorRecordIsSticky :
    (∃ t, exec .nop (State.reset.raiseError .noKey) = .next t ∧ t.ecode = .ok ∧ t.err = true) ∧
    (∃ t, exec .eclr (State.reset.raiseError .noKey) = .next t) ∧
    (NextReset (State.reset.present .reset) ∧ ∃ t, step (State.reset.present .reset) = .next t) ∧
    (∃ s t, step s = .next t ∧ s.err = true ∧ t.err = false ∧ NextCommand s .eclr) :=
  ⟨⟨_, rfl, by decide, by decide⟩, ⟨_, rfl⟩, ⟨⟨[], .inl rfl⟩, _, next_getD State.reset (by decide)⟩,
    (State.reset.raiseError .noKey).present (cmdWrite (encode .eclr)),
    goesTo (State.reset.raiseError .noKey) (cmdWrite (encode .eclr)), next_getD _ (by decide +kernel), by decide,
    by decide +kernel, ⟨[], rfl⟩⟩

theorem witness_CommandFrame :
    ∃ t, exec .nop blockAtEdge = .next t ∧ Instr.isPrimitive .nop = false ∧ (∀ d, Instr.nop ≠ .keyexp d) ∧
      Instr.nop ≠ .kclr ∧ Instr.nop ≠ .eclr ∧ t.ecode = .ok ∧ Instr.nop ≠ .crypt ∧
      ¬ (blockAtEdge.outOff.toNat ≤ 239 ∧ 239 < blockAtEdge.outOff.toNat + 16) ∧
      ¬ (blockAtEdge.outOff.toNat ≤ 256 ∧ 256 < blockAtEdge.outOff.toNat + 16) :=
  ⟨_, rfl, rfl, by simp, by simp, by simp, rfl, by simp, by decide, by decide⟩

theorem witness_RkChanges :
    (∃ t, step (keyAtEdge.present (cmdWrite 0x101)) = .next t ∧ ¬ (t.rk = keyAtEdge.rk ∧ t.kv = keyAtEdge.kv ∧
      t.dir = keyAtEdge.dir)) ∧
    ∃ t, step (blockAtEdge.present (cmdWrite 0x003)) = .next t ∧ ¬ (t.rk = blockAtEdge.rk ∧ t.kv = blockAtEdge.kv ∧
      t.dir = blockAtEdge.dir) :=
  ⟨⟨goesTo keyAtEdge (cmdWrite 0x101), next_getD _ (by decide +kernel), by decide +kernel⟩,
    goesTo blockAtEdge (cmdWrite 0x003), next_getD _ (by decide +kernel), by decide +kernel⟩

theorem witness_ResChanges :
    ∃ t, step ((withArg 1).present (cmdWrite 0x010)) = .next t ∧ t.res ≠ (withArg 1).res :=
  ⟨goesTo (withArg 1) (cmdWrite 0x010), next_getD _ (by decide +kernel), by decide +kernel⟩

theorem witness_OperandRegisters :
    ∃ t, step (State.reset.present (writeWord 0x020 7)) = .next t ∧ t.readCtl .arg ≠ State.reset.readCtl .arg :=
  ⟨goesTo State.reset (writeWord 0x020 7), next_getD _ (by decide +kernel), by decide +kernel⟩

theorem witness_BufChanges :
    (∃ t, step (State.reset.present (writeWord 0x1FC 7)) = .next t ∧ t.buf.read 255 ≠ State.reset.buf.read 255) ∧
    ∃ t, step (blockAtEdge.present (cmdWrite 0x002)) = .next t ∧ t.buf.read 240 ≠ blockAtEdge.buf.read 240 :=
  ⟨⟨goesTo State.reset (writeWord 0x1FC 7), next_getD _ (by decide +kernel), by decide +kernel⟩,
    goesTo blockAtEdge (cmdWrite 0x002), next_getD _ (by decide +kernel), by decide +kernel⟩

theorem witness_ModelFaultMarkIsPermanent :
    ∃ t, step (State.reset.markModelFault.present .reset) = .next t ∧
      (State.reset.markModelFault.present .reset).modelFault = true := ⟨_, next_getD State.reset (by decide), rfl⟩

theorem witness_ModelFaultOnlyFromUnwritten :
    (∃ t, step (State.reset.present (readWord 0x1FC)) = .next t ∧ State.reset.modelFault = false ∧ t.modelFault = true) ∧
    ∃ t, step ((keyed State.reset .encrypt).present (cmdWrite 0x002)) = .next t ∧ t.modelFault = true :=
  ⟨⟨goesTo State.reset (readWord 0x1FC), next_getD _ (by decide +kernel), rfl, by decide +kernel⟩,
    goesTo (keyed State.reset .encrypt) (cmdWrite 0x002), next_getD _ (by decide +kernel), by decide +kernel⟩

/-- The clauses of the bus statements at their boundaries: RK[0], RK[31]; the first and the last window word, written and
UNWRITTEN; the reserved offsets beside them. -/
theorem witness_ReadSemantics :
    ((0x080 : Offset).toNat = 0x080 + 4 * (0 : Fin 32) ∧ (0x0FC : Offset).toNat = 0x080 + 4 * (31 : Fin 32)) ∧
    ((0x100 : Offset).toNat = 0x100 + 4 * 0 ∧ (0x1FC : Offset).toNat = 0x100 + 4 * 63 ∧ 4 * 63 < keyAtEdge.cfg.bufBytes) ∧
    HoldsBytes keyAtEdge (4 * 63) #v[0x76, 0x54, 0x32, 0x10] ∧
    Reserved keyAtEdge 0x028 ∧ Reserved keyAtEdge 0x07C ∧ Reserved keyAtEdge 0x200 ∧ Reserved keyAtEdge 0xFFC := by
  unfold Reserved HoldsBytes; decide +kernel

theorem witness_ReadOfUnwritten :
    (0x1EC : Offset).toNat = 0x100 + 4 * 59 ∧ 4 * 59 < keyAtEdge.cfg.bufBytes ∧
    (∀ k : Fin 4, keyAtEdge.buf.read (4 * 59 + k) = none) ∧
    (0x100 : Offset).toNat = 0x100 + 4 * 0 ∧ ∀ k : Fin 4, State.reset.buf.read (4 * 0 + k) = none := by decide +kernel

theorem witness_WriteSemantics :
    ((0x0FC : Offset).toNat = 0x080 + 4 * (31 : Fin 32)) ∧
    ((0x1FC : Offset).toNat = 0x100 + 4 * 63 ∧ 4 * 63 < State.reset.cfg.bufBytes) ∧
    (∃ t, issueCommand 0x023 State.reset = .next t) ∧ ((0x028 : Offset).toNat % 4 = 0 ∧ Reserved State.reset 0x028) :=
  ⟨by decide, by decide, ⟨_, next_getD State.reset (by decide +kernel)⟩, by unfold Reserved; decide⟩

theorem witness_MalformedAccess : (Width.two ≠ .four ∧ Width.one ≠ .four) ∧ (0x006 : Offset).toNat % 4 ≠ 0 := by decide

theorem witness_CmdWriteAlwaysAnswersOk : (State.reset.present (cmdWrite 0xFFFFFFFF)).pending = cmdWrite 0xFFFFFFFF :: [] := rfl

theorem witness_EachTransactionIsAnsweredOnce :
    ∃ t, (State.reset.present (readWord 0x104)).pending = readWord 0x104 :: [] ∧
      step (State.reset.present (readWord 0x104)) = .next t := ⟨_, rfl, next_getD State.reset (by decide +kernel)⟩

theorem witness_ParametersNeverChange :
    ∃ t, step (State.reset.present (writeWord 0x00C 7)) = .next t := ⟨_, next_getD State.reset (by decide +kernel)⟩

theorem witness_ResetGivesResetValues :
    (blockAtEdge.present .reset).pending = .reset :: [] ∧ (blockAtEdge.present (.resetDuring 2)).pending = .resetDuring 2 :: [] :=
  ⟨rfl, rfl⟩

theorem witness_ResetMeetsInvariant : (Config.mk 16).legal ∧ (Config.mk 3840).legal := by decide

theorem witness_EveryStepKeepsInvariant :
    (blockAtEdge.present (cmdWrite 0x002)).Inv ∧ ∃ t, step (blockAtEdge.present (cmdWrite 0x002)) = .next t :=
  ⟨{ legal := by decide
     buf := ⟨by decide +kernel, by decide +kernel⟩
     key := ⟨fun _ => ⟨standardKey, rfl⟩, fun h => absurd h (by decide)⟩
     errors := ⟨fun h => absurd rfl h, fun h => absurd h (by decide)⟩ },
    _, next_getD blockAtEdge (by decide +kernel)⟩

theorem witness_SboxHasAlgebraicForm : (0x01 : Byte) ≠ 0 ∧ (0xFF : Byte) ≠ 0 := by decide

theorem witness_RotationAmount : 0 < 32 ∧ 31 < 32 := by decide

/-- KEYEXP.E and KEYEXP.D run from one state. -/
theorem witness_SubkeyReversal :
    keyAtEdge.keyLen = 16 ∧ Fits keyAtEdge keyAtEdge.keyOff ∧ HoldsBytes keyAtEdge keyAtEdge.keyOff.toNat standardKey :=
  witness_KeyexpStoresSchedule

/-- The sequence Y of 43 R235 for the standard block under the encrypt schedule of the standard key. -/
def sequenceWindow : Nat → Vector Word 4
  | 0 => blockWords standardKey
  | i + 1 =>
    let y := sequenceWindow i
    #v[y[1], y[2], y[3],
      y[0] ^^^ lRound (Sys2Proof.Machine.tau (y[1] ^^^ y[2] ^^^ y[3] ^^^ (keySchedule standardKey .encrypt).toList.getD i 0))]

theorem witness_TransformEqualsSequenceForm :
    (∀ j : Fin 4, (sequenceWindow j)[0] = be32 standardKey (4 * j)) ∧
    ∀ i : Fin 32, (sequenceWindow (i + 4))[0] = (sequenceWindow i)[0] ^^^
      lRound (Sys2Proof.Machine.tau ((sequenceWindow (i + 1))[0] ^^^ (sequenceWindow (i + 2))[0] ^^^
        (sequenceWindow (i + 3))[0] ^^^ (keySchedule standardKey .encrypt)[i])) := by decide +kernel

/-- The key at BUF[0 .. 16), the block at BUF[16 .. 32): the windows meet and do not overlap. -/
def keyAndBlock : State := { (withBlock 0 standardKey).memWrite 16 standardCipher with inOff := 16, outOff := 16 }

theorem witness_EncryptThenDecryptRestoresBlock :
    keyAndBlock.keyLen = 16 ∧ Fits keyAndBlock keyAndBlock.keyOff ∧ Fits keyAndBlock keyAndBlock.inOff ∧
    keyAndBlock.outOff = keyAndBlock.inOff ∧ keyAndBlock.keyOff.toNat + 16 ≤ keyAndBlock.inOff.toNat ∧
    HoldsBytes keyAndBlock keyAndBlock.keyOff.toNat standardKey ∧
    HoldsBytes keyAndBlock keyAndBlock.inOff.toNat standardCipher := by unfold Fits HoldsBytes; decide +kernel

/-- Two states that hold the block at different offsets. -/
theorem witness_CryptOutputDependsOnInputAndRk :
    let u := keyed { withBlock 3 standardKey with inOff := 3 } .encrypt
    (blockAtEdge.kv = true ∧ u.kv = true ∧ Fits blockAtEdge blockAtEdge.inOff ∧ Fits blockAtEdge blockAtEdge.outOff ∧
      Fits u u.inOff ∧ Fits u u.outOff) ∧ HoldsBytes blockAtEdge blockAtEdge.inOff.toNat standardKey ∧
    HoldsBytes u u.inOff.toNat standardKey ∧ blockAtEdge.rk = u.rk := by
  unfold Fits HoldsBytes; exact ⟨by decide +kernel, by decide +kernel, by decide +kernel, rfl⟩

/-- The state in which C of `witness_CryptRoundTrip` is decrypted: KEYEXP.D's schedule, other offsets. -/
def cipherUnderDecrypt : State := { keyed (withBlock 7 standardCipher) .decrypt with inOff := 7, outOff := 9 }

/-- The key is expanded at both edges of BUF; P is encrypted in place at the upper edge over the key it was expanded from; C
is decrypted between overlapping windows. -/
theorem witness_CryptRoundTrip :
    KeyReady keyAtEdge standardKey ∧ KeyReady (withBlock 0 standardKey) standardKey ∧
    (execTo (.keyexp .encrypt) keyAtEdge).rk = blockAtEdge.rk ∧ BlockReady blockAtEdge standardKey ∧
    HoldsBytes (execTo .crypt blockAtEdge) blockAtEdge.outOff.toNat standardCipher ∧
    (execTo (.keyexp .decrypt) (withBlock 0 standardKey)).rk = cipherUnderDecrypt.rk ∧
    BlockReady cipherUnderDecrypt standardCipher := by
  unfold KeyReady BlockReady Fits HoldsBytes; decide +kernel

theorem witness_RepeatedCrypt : BlockReady blockAtEdge standardKey ∧ blockAtEdge.outOff = blockAtEdge.inOff := by
  unfold BlockReady Fits HoldsBytes; decide +kernel

end Sys2Proof.Tests
end

/-!
SUPPORT. The invariant of the machine's state, operation by operation: each named operation keeps `State.Inv`, therefore a
command does, therefore a step does.
-/

namespace Sys2Proof.Machine

variable {s t : State}

/-! ## Each part of the invariant reads a few fields only -/

theorem State.BufInv.congr (h : s.BufInv) (hcfg : t.cfg = s.cfg) (hbuf : t.buf = s.buf) : t.BufInv where
  canonical := hbuf ▸ h.canonical
  inRange := hcfg ▸ hbuf ▸ h.inRange

theorem State.KeyInv.congr (h : s.KeyInv) (hrk : t.rk = s.rk) (hkv : t.kv = s.kv) (hdir : t.dir = s.dir) : t.KeyInv where
  keyed := hrk ▸ hkv ▸ hdir ▸ h.keyed
  cleared := hrk ▸ hkv ▸ hdir ▸ h.cleared

theorem State.ErrorInv.congr (h : s.ErrorInv) (hkv : t.kv = s.kv) (herr : t.err = s.err) (hecode : t.ecode = s.ecode) :
    t.ErrorInv where
  sticky := herr ▸ hecode ▸ h.sticky
  noKey := hkv ▸ hecode ▸ h.noKey

/-- With ECODE = 0 the error record asks nothing of ERR and KV. -/
theorem State.ErrorInv.of_ok (h : s.ecode = .ok) : s.ErrorInv where
  sticky := fun hne => absurd h hne
  noKey := fun hn => by simp [h] at hn

theorem State.Inv.congr (h : s.Inv) (hcfg : t.cfg = s.cfg) (hbuf : t.buf = s.buf) (hrk : t.rk = s.rk) (hkv : t.kv = s.kv)
    (hdir : t.dir = s.dir) (herr : t.err = s.err) (hecode : t.ecode = s.ecode) : t.Inv where
  legal := hcfg ▸ h.legal
  buf := h.buf.congr hcfg hbuf
  key := h.key.congr hrk hkv hdir
  errors := h.errors.congr hkv herr hecode

/-! ## Operations that write no field the invariant reads -/

theorem State.Inv.setPending (h : s.Inv) (p : List HostEvent) : ({ s with pending := p } : State).Inv :=
  h.congr rfl rfl rfl rfl rfl rfl rfl

theorem State.Inv.respond (h : s.Inv) (r : Response) : (s.respond r).Inv := h.congr rfl rfl rfl rfl rfl rfl rfl

theorem State.Inv.markModelFault (h : s.Inv) : s.markModelFault.Inv := h.congr rfl rfl rfl rfl rfl rfl rfl

theorem State.Inv.setRes (h : s.Inv) (w : Word) : (s.setRes w).Inv := h.congr rfl rfl rfl rfl rfl rfl rfl

theorem State.Inv.afterRead (h : s.Inv) (a n : Nat) : (s.afterRead a n).Inv := by
  rw [afterRead_eq]
  exact h.congr rfl rfl rfl rfl rfl rfl rfl

theorem State.Inv.writeCtl (h : s.Inv) (r : CtlReg) (w : Word) : (s.writeCtl r w).Inv := by
  cases r <;> exact h.congr rfl rfl rfl rfl rfl rfl rfl

/-! ## The error record -/

theorem State.Inv.succeed (h : s.Inv) : s.succeed.Inv where
  legal := h.legal
  buf := h.buf.congr rfl rfl
  key := h.key.congr rfl rfl rfl
  errors := .of_ok rfl

theorem State.Inv.clearErrors (h : s.Inv) : s.clearErrors.Inv where
  legal := h.legal
  buf := h.buf.congr rfl rfl
  key := h.key.congr rfl rfl rfl
  errors := .of_ok rfl

/-- An error keeps the invariant when NO_KEY is raised only without a key. -/
theorem State.Inv.raiseError (h : s.Inv) {code : ErrorCode} (hcode : code = .noKey → s.kv = false) :
    (s.raiseError code).Inv where
  legal := h.legal
  buf := h.buf.congr rfl rfl
  key := h.key.congr rfl rfl rfl
  errors := ⟨fun _ => rfl, hcode⟩

/-! ## The key -/

/-- KEYEXP's effect. ECODE = 0 comes with it: a NO_KEY from before would not go with KV = 1. -/
theorem State.Inv.installKey_succeed (h : s.Inv) (key : Vector Byte 16) (d : Direction) :
    (s.installKey (keySchedule key d) d).succeed.Inv where
  legal := h.legal
  buf := h.buf.congr rfl rfl
  key := ⟨fun _ => ⟨key, rfl⟩, fun hkv => by simp at hkv⟩
  errors := .of_ok rfl

theorem State.Inv.clearKey (h : s.Inv) : s.clearKey.Inv where
  legal := h.legal
  buf := h.buf.congr rfl rfl
  key := ⟨fun hkv => by simp at hkv, fun _ => ⟨rfl, rfl⟩⟩
  errors := ⟨h.errors.sticky, fun _ => rfl⟩

/-! ## Memory and reset -/

/-- A write of bytes that lie in BUF. -/
theorem State.Inv.memWrite (h : s.Inv) {n a : Nat} (v : Vector Byte n) (hfit : a + n ≤ s.cfg.bufBytes) :
    (s.memWrite a v).Inv where
  legal := h.legal
  buf :=
    { canonical := wf_writeBytes h.buf.canonical a v.toList
      inRange := fun p hp => by
        rcases mem_writeBytes hp with ⟨_, hlt⟩ | hp
        · rw [Vector.length_toList] at hlt
          exact Nat.lt_of_lt_of_le hlt hfit
        · exact h.buf.inRange p hp }
  key := h.key.congr rfl rfl rfl
  errors := h.errors.congr rfl rfl rfl

theorem State.Inv.applyReset (h : s.Inv) : s.applyReset.Inv where
  legal := h.legal
  buf := ⟨wf_nil, by simp⟩
  key := ⟨fun hkv => by simp at hkv, fun _ => ⟨rfl, rfl⟩⟩
  errors := .of_ok rfl

/-- An aligned offset inside the BUF window has its whole word in BUF, since BUF_BYTES is a multiple of 4 (00_scope.md R10). -/
theorem windowWord_fits {c : Config} (hc : c.legal) {o : Offset} {k : Nat} (halign : o.toNat % 4 = 0)
    (ho : o.toNat = 0x100 + k) (hk : k < c.bufBytes) : k + 4 ≤ c.bufBytes := by
  obtain ⟨hmod, _, _⟩ := hc
  omega

/-! ## Commands and steps -/

/-- CRYPT is the one command that raises NO_KEY, and it does so only without a key (43_block_transform.md R240). -/
theorem kv_of_raises_noKey {i : Instr} (h : raises i s .noKey) : s.kv = false := by
  cases i
  case crypt => simpa [raises] using h
  all_goals simp [raises] at h

/-- A command keeps the invariant. -/
theorem exec_keeps_inv {i : Instr} (hs : s.Inv) (h : exec i s = .next t) : t.Inv := by
  rcases exec_cases h with ⟨_, hraises, _, rfl⟩ | ⟨_, rfl⟩ | ⟨_, rfl⟩ | ⟨_, rfl⟩ | ⟨_, rfl⟩ | ⟨d, _, _, _, rfl⟩ |
    ⟨_, _, _, hout, rfl⟩
  · exact hs.raiseError fun hcode => kv_of_raises_noKey (hcode ▸ hraises)
  · exact hs.succeed
  · exact hs.clearKey.succeed
  · exact hs.clearErrors
  · exact (hs.setRes _).succeed
  · exact (hs.afterRead _ _).installKey_succeed _ d
  · have hcfg : (s.afterRead s.inOff.toNat 16).cfg = s.cfg := by rw [afterRead_eq]
    exact ((hs.afterRead _ _).memWrite _ (hcfg ▸ hout)).succeed

/-- A command word, legal or not, keeps the invariant. -/
theorem issueCommand_keeps_inv {c : Word} (hs : s.Inv) (h : issueCommand c s = .next t) : t.Inv := by
  unfold issueCommand at h
  split at h
  · exact exec_keeps_inv hs h
  · cases h
    exact hs.raiseError (by simp)

/-- Every step keeps the invariant. -/
theorem step_keeps_inv (hs : s.Inv) (h : step s = .next t) : t.Inv := by
  rcases step_cases h with ⟨_, rfl⟩ | ⟨_, rest, _, hevent⟩
  · exact hs
  have hrest : ({ s with pending := rest } : State).Inv := hs.setPending rest
  rcases hevent with ⟨_, rfl⟩ | ⟨_, _, rfl⟩ | ⟨_, r, _, _, rfl⟩ | ⟨_, _, _, _, _, _, _, rfl⟩ | ⟨_, _, _, hissue, rfl⟩ |
    ⟨r, w, _, _, rfl⟩ | ⟨_, _, _, _, halign, ho, hk, rfl⟩
  · exact hrest.applyReset
  · exact hrest.applyReset.respond .abandoned
  · exact hrest.respond r
  · exact hrest.markModelFault.respond .modelFault
  · exact (issueCommand_keeps_inv hrest hissue).respond .ok
  · exact (hrest.writeCtl r w).respond .ok
  · exact (hrest.memWrite _ (windowWord_fits hs.legal halign ho hk)).respond .ok

/-- Settles O41: the invariant is kept by every operation, therefore by every command, therefore by every step. -/
theorem everyStepKeepsInvariant : Obligations.EveryStepKeepsInvariant := by
  unfold Obligations.EveryStepKeepsInvariant
  exact fun _ _ => step_keeps_inv

end Sys2Proof.Machine

/-!
SUPPORT. What a command and a step can change (10_state.md R36-R47): the frame of every command, and from it which event of
the host's stands behind a change of the key, of RES, of an operand register or of a byte of BUF. Last, the layout of STATUS
and what the reset state reads as.
-/

namespace Sys2Proof.Machine

variable {s t u : State} {i : Instr}

/-! ## Command words -/

/-- KEYEXP's mask leaves out bit 8 alone, so its row selects two words (30_encoding.md R112). -/
theorem eq_keyexp_word_of_masked {c : Word} (h : c &&& 0xFFFFFEFF = 0x00000001) : c = 0x00000001 ∨ c = 0x00000101 := by
  have hbit : c = 0x00000001 ||| (c &&& BitVec.twoPow 32 8) := by
    rw [← h, ← BitVec.and_or_distrib_left]
    exact BitVec.and_allOnes.symm
  rw [hbit, BitVec.and_twoPow]
  split <;> decide

/-- A word that a row of the opcode table selects is the word of that row's command, performed with D = c[8]
(44_command_control.md R261): every row but KEYEXP's compares the whole word. -/
theorem encode_of_selects {row : OpcodeRow} {c : Word} (hrow : row ∈ opcodeRows) (hsel : row.selects c = true) :
    encode (row.instr.withDirection (dField c)) = c := by
  have hword : c &&& row.mask = row.pattern := by simpa [OpcodeRow.selects] using hsel
  have hmask : ∀ r ∈ opcodeRows, r.mask = 0xFFFFFFFF ∨ r = ⟨0x00000001, 0xFFFFFEFF, .keyexp .encrypt⟩ := by decide
  rcases hmask row hrow with hfull | rfl
  · have hpattern : ∀ r ∈ opcodeRows, r.mask = 0xFFFFFFFF → encode (r.instr.withDirection (dField r.pattern)) = r.pattern := by
      decide
    have hc : c = row.pattern := by
      rw [← hword, hfull]
      exact BitVec.and_allOnes.symm
    exact hc ▸ hpattern row hrow hfull
  · rcases eq_keyexp_word_of_masked hword with rfl | rfl <;> decide

/-- A word that decodes to a command is that command's word. -/
theorem encode_of_decode {c : Word} (h : decode c = .ok i) : encode i = c := by
  unfold decode at h
  split at h
  · rename_i row hfind
    cases h
    have hsel : row.selects c = true := by simpa using List.find?_some hfind
    exact encode_of_selects (List.mem_of_find?_eq_some hfind) hsel
  · simp at h

/-- Everything the issue of a command word can do: perform the command whose word it is, or record ILLEGAL_CMD. -/
theorem issueCommand_cases {c : Word} (h : issueCommand c s = .next u) :
    (∃ i, encode i = c ∧ exec i s = .next u) ∨ u = s.raiseError .illegalCmd := by
  unfold issueCommand at h
  split at h
  · exact .inl ⟨_, encode_of_decode ‹_›, h⟩
  · cases h
    exact .inr rfl

/-! ## A `MemRead` changes the mark and the counter of free values alone -/

section
variable (s : State) (a n : Nat)

@[simp] theorem afterRead_cfg : (s.afterRead a n).cfg = s.cfg := by rw [afterRead_eq]
@[simp] theorem afterRead_rk : (s.afterRead a n).rk = s.rk := by rw [afterRead_eq]
@[simp] theorem afterRead_kv : (s.afterRead a n).kv = s.kv := by rw [afterRead_eq]
@[simp] theorem afterRead_dir : (s.afterRead a n).dir = s.dir := by rw [afterRead_eq]
@[simp] theorem afterRead_err : (s.afterRead a n).err = s.err := by rw [afterRead_eq]
@[simp] theorem afterRead_keyOff : (s.afterRead a n).keyOff = s.keyOff := by rw [afterRead_eq]
@[simp] theorem afterRead_keyLen : (s.afterRead a n).keyLen = s.keyLen := by rw [afterRead_eq]
@[simp] theorem afterRead_inOff : (s.afterRead a n).inOff = s.inOff := by rw [afterRead_eq]
@[simp] theorem afterRead_outOff : (s.afterRead a n).outOff = s.outOff := by rw [afterRead_eq]
@[simp] theorem afterRead_arg : (s.afterRead a n).arg = s.arg := by rw [afterRead_eq]
@[simp] theorem afterRead_res : (s.afterRead a n).res = s.res := by rw [afterRead_eq]
@[simp] theorem afterRead_buf : (s.afterRead a n).buf = s.buf := by rw [afterRead_eq]
@[simp] theorem afterRead_pending : (s.afterRead a n).pending = s.pending := by rw [afterRead_eq]
@[simp] theorem afterRead_responses : (s.afterRead a n).responses = s.responses := by rw [afterRead_eq]

end

/-! ## What the states before and after have in common -/

/-- `t` has the parameters and the operand registers of `s` (10_state.md R36-R39, R41, R43). -/
structure State.SameOperands (s t : State) : Prop where
  cfg : t.cfg = s.cfg
  keyOff : t.keyOff = s.keyOff
  keyLen : t.keyLen = s.keyLen
  inOff : t.inOff = s.inOff
  outOff : t.outOff = s.outOff
  arg : t.arg = s.arg

/-- `t` has all of the core's data of `s`: the two may differ in the error record, the model fault mark, the counter of free
values and the host's side only. -/
structure State.SameData (s t : State) : Prop extends s.SameOperands t where
  rk : t.rk = s.rk
  kv : t.kv = s.kv
  dir : t.dir = s.dir
  res : t.res = s.res
  buf : t.buf = s.buf

theorem State.SameData.of_update (s : State) (err : Bool) (ecode : ErrorCode) (modelFault : Bool) (freeIndex : Nat)
    (pending : List HostEvent) (responses : List Response) :
    s.SameData { s with err, ecode, modelFault, freeIndex, pending, responses } :=
  ⟨⟨rfl, rfl, rfl, rfl, rfl, rfl⟩, rfl, rfl, rfl, rfl, rfl⟩

/-- The registers of R32 that are read-write, whose value only a bus write and reset change. -/
abbrev operandRegs : List CtlReg := [.keyOff, .keyLen, .inOff, .outOff, .arg]

theorem State.SameOperands.readCtl (h : s.SameOperands t) {r : CtlReg} (hr : r ∈ operandRegs) :
    t.readCtl r = s.readCtl r := by
  simp only [List.mem_cons, List.not_mem_nil, or_false] at hr
  rcases hr with rfl | rfl | rfl | rfl | rfl
  · exact h.keyOff
  · exact h.keyLen
  · exact h.inOff
  · exact h.outOff
  · exact h.arg

/-! ## The frame of a command -/

/-- No command writes the parameters or an operand register. -/
theorem exec_sameOperands (h : exec i s = .next t) : s.SameOperands t := by
  rcases exec_cases h with ⟨_, _, _, rfl⟩ | ⟨_, rfl⟩ | ⟨_, rfl⟩ | ⟨_, rfl⟩ | ⟨_, rfl⟩ | ⟨_, _, _, _, rfl⟩ | ⟨_, _, _, _, rfl⟩ <;>
    constructor <;> simp

/-- No command reads or writes the host's side. -/
theorem exec_keeps_host (h : exec i s = .next t) : t.pending = s.pending ∧ t.responses = s.responses := by
  rcases exec_cases h with ⟨_, _, _, rfl⟩ | ⟨_, rfl⟩ | ⟨_, rfl⟩ | ⟨_, rfl⟩ | ⟨_, rfl⟩ | ⟨_, _, _, _, rfl⟩ | ⟨_, _, _, _, rfl⟩ <;>
    simp

/-- What a command can do to RES (R42). -/
theorem exec_res_cases (h : exec i s = .next t) : i.isPrimitive = true ∨ t.res = s.res := by
  rcases exec_cases h with ⟨_, _, _, rfl⟩ | ⟨_, rfl⟩ | ⟨_, rfl⟩ | ⟨_, rfl⟩ | ⟨hprim, _⟩ | ⟨_, _, _, _, rfl⟩ | ⟨_, _, _, _, rfl⟩
  case inr.inr.inr.inr.inl => exact .inl hprim
  all_goals exact .inr (by simp)

/-- What a command can do to RK, KV and DIR (R34, R40). -/
theorem exec_key_cases (h : exec i s = .next t) :
    (t.rk = s.rk ∧ t.kv = s.kv ∧ t.dir = s.dir) ∨
    (∃ d, i = .keyexp d ∧ s.keyLen = 16 ∧ Fits s s.keyOff ∧ t.kv = true ∧ t.dir = d) ∨
    (i = .kclr ∧ t.rk = Vector.replicate 32 0 ∧ t.kv = false ∧ t.dir = .encrypt) := by
  rcases exec_cases h with ⟨_, _, _, rfl⟩ | ⟨_, rfl⟩ | ⟨hi, rfl⟩ | ⟨_, rfl⟩ | ⟨_, rfl⟩ | ⟨d, hi, hlen, hfits, rfl⟩ |
    ⟨_, _, _, _, rfl⟩
  case inr.inr.inl => exact .inr (.inr ⟨hi, rfl, rfl, rfl⟩)
  case inr.inr.inr.inr.inr.inl => exact .inr (.inl ⟨d, hi, hlen, hfits, rfl, rfl⟩)
  all_goals exact .inl (by simp)

/-- What a command can do to BUF (R47): CRYPT with a key writes its output window. -/
theorem exec_buf_cases (h : exec i s = .next t) :
    t.buf = s.buf ∨
    (i = .crypt ∧ s.kv = true ∧ ∃ block : Vector Byte 16, t.buf = (s.memWrite s.outOff.toNat block).buf) := by
  rcases exec_cases h with ⟨_, _, _, rfl⟩ | ⟨_, rfl⟩ | ⟨_, rfl⟩ | ⟨_, rfl⟩ | ⟨_, rfl⟩ | ⟨_, _, _, _, rfl⟩ | ⟨hi, hkv, _, _, rfl⟩
  case inr.inr.inr.inr.inr.inr => exact .inr ⟨hi, hkv, blockTransform s.rk (s.memRead s.inOff.toNat 16), by simp⟩
  all_goals exact .inl (by simp)

/-- A success other than ECLR's leaves ERR (R44). -/
theorem exec_success_keeps_err (h : exec i s = .next t) (hi : i ≠ .eclr) (hok : t.ecode = .ok) : t.err = s.err := by
  rcases exec_cases h with ⟨_, _, hcode, rfl⟩ | ⟨_, rfl⟩ | ⟨_, rfl⟩ | ⟨heclr, _⟩ | ⟨_, rfl⟩ | ⟨_, _, _, _, rfl⟩ |
    ⟨_, _, _, _, rfl⟩
  case inl => exact absurd hok hcode
  case inr.inr.inr.inl => exact absurd heclr hi
  all_goals simp

/-- Only KEYEXP and CRYPT read BUF, and so only they can set the mark and take free values. -/
theorem exec_keeps_faultMark (h : exec i s = .next t) (hkeyexp : ∀ d, i ≠ .keyexp d) (hcrypt : i ≠ .crypt) :
    t.modelFault = s.modelFault ∧ t.freeIndex = s.freeIndex := by
  rcases exec_cases h with ⟨_, _, _, rfl⟩ | ⟨_, rfl⟩ | ⟨_, rfl⟩ | ⟨_, rfl⟩ | ⟨_, rfl⟩ | ⟨d, hi, _⟩ | ⟨hi, _⟩
  case inr.inr.inr.inr.inr.inl => exact absurd hi (hkeyexp d)
  case inr.inr.inr.inr.inr.inr => exact absurd hi hcrypt
  all_goals simp

/-- A `MemWrite` leaves every byte outside its window as it was. -/
theorem memWrite_read_outside {n a x : Nat} (v : Vector Byte n) (hx : ¬ (a ≤ x ∧ x < a + n)) :
    (s.memWrite a v).buf.read x = s.buf.read x := by
  rw [memWrite_buf, read_writeBytes, dif_neg]
  rw [Vector.length_toList]
  omega

/-- A command that changes a byte of BUF is a CRYPT with a key, and the byte is in its output window. -/
theorem exec_changes_byte {a : Nat} (h : exec i s = .next t) (hne : t.buf.read a ≠ s.buf.read a) :
    i = .crypt ∧ s.kv = true ∧ s.outOff.toNat ≤ a ∧ a < s.outOff.toNat + 16 := by
  rcases exec_buf_cases h with hbuf | ⟨hi, hkv, block, hbuf⟩
  · exact absurd (by rw [hbuf]) hne
  · refine ⟨hi, hkv, ?_⟩
    by_contra hout
    exact hne (hbuf ▸ memWrite_read_outside block hout)

/-- Settles O25: each clause is the frame lemma of the fields it names. -/
theorem commandFrame : Obligations.CommandFrame := by
  unfold Obligations.CommandFrame
  intro i s t h
  obtain ⟨hcfg, hkeyOff, hkeyLen, hinOff, houtOff, harg⟩ := exec_sameOperands h
  obtain ⟨hpending, hresponses⟩ := exec_keeps_host h
  refine ⟨⟨hcfg, hkeyOff, hkeyLen, hinOff, houtOff, harg, hpending, hresponses⟩, fun hprim => ?_, fun hkeyexp hkclr => ?_,
    exec_success_keeps_err h, fun hcrypt a => ?_, fun a hout => ?_, exec_keeps_faultMark h⟩
  · exact (exec_res_cases h).resolve_left (by simp [hprim])
  · rcases exec_key_cases h with hkey | ⟨d, hi, _⟩ | ⟨hi, _⟩
    · exact hkey
    · exact absurd hi (hkeyexp d)
    · exact absurd hi hkclr
  · by_contra hne
    obtain ⟨hi, _⟩ := exec_changes_byte h hne
    exact hcrypt hi
  · by_contra hne
    obtain ⟨_, _, hin⟩ := exec_changes_byte h hne
    exact hout hin

/-! ## What one step can do to the core's data -/

/-- A command performed with the event that issued it taken off, seen as performed on the whole state. -/
theorem exec_of_exec_taken {rest : List HostEvent} (h : exec i { s with pending := rest } = .next u) :
    ∃ v, exec i s = .next v ∧ u = v.withHost rest s.responses :=
  onNext_eq_next ((exec_withHost s rest s.responses i).symm.trans h)

/-- Everything one step can do to the core's data, by the event it takes: nothing, reset, a command, a write of a register,
or a write of a word of the BUF window. -/
theorem step_data_cases (h : step s = .next t) :
    s.SameData t ∨ (NextReset s ∧ t.cfg = s.cfg) ∨
    (∃ i u, NextCommand s i ∧ exec i s = .next u ∧ u.SameData t) ∨
    (∃ r w rest, s.pending = writeWord (ctlOffset r) w :: rest ∧ (s.writeCtl r w).SameData t) ∨
    (∃ o k w rest, s.pending = writeWord o w :: rest ∧ o.toNat % 4 = 0 ∧ o.toNat = 0x100 + k ∧
      (s.memWrite k (unbe32 w)).SameData t) := by
  rcases step_cases h with ⟨_, rfl⟩ | ⟨e, rest, hp, hevent⟩
  · exact .inl (.of_update ..)
  rcases hevent with ⟨rfl, rfl⟩ | ⟨c, rfl, rfl⟩ | ⟨_, r, _, _, rfl⟩ | ⟨_, _, _, _, _, _, _, rfl⟩ | ⟨c, u, rfl, hissue, rfl⟩ |
    ⟨r, w, _, rfl, rfl⟩ | ⟨o, k, w, rfl, halign, ho, _, rfl⟩
  · exact .inr (.inl ⟨⟨rest, .inl hp⟩, rfl⟩)
  · exact .inr (.inl ⟨⟨rest, .inr ⟨c, hp⟩⟩, rfl⟩)
  · exact .inl (.of_update ..)
  · exact .inl (.of_update ..)
  · rcases issueCommand_cases hissue with ⟨i, rfl, hexec⟩ | rfl
    · obtain ⟨v, hv, rfl⟩ := exec_of_exec_taken hexec
      exact .inr (.inr (.inl ⟨i, v, ⟨rest, hp⟩, hv, .of_update ..⟩))
    · exact .inl (.of_update ..)
  · refine .inr (.inr (.inr (.inl ⟨r, w, rest, hp, ?_⟩)))
    cases r <;> exact .of_update ..
  · exact .inr (.inr (.inr (.inr ⟨o, k, w, rest, hp, halign, ho, .of_update ..⟩)))

/-! ## What a bus write of a register does -/

section
variable (s : State) (r : CtlReg) (w : Word)

@[simp] theorem writeCtl_cfg : (s.writeCtl r w).cfg = s.cfg := by cases r <;> rfl
@[simp] theorem writeCtl_rk : (s.writeCtl r w).rk = s.rk := by cases r <;> rfl
@[simp] theorem writeCtl_kv : (s.writeCtl r w).kv = s.kv := by cases r <;> rfl
@[simp] theorem writeCtl_dir : (s.writeCtl r w).dir = s.dir := by cases r <;> rfl
@[simp] theorem writeCtl_res : (s.writeCtl r w).res = s.res := by cases r <;> rfl
@[simp] theorem writeCtl_buf : (s.writeCtl r w).buf = s.buf := by cases r <;> rfl

/-- What a register reads as after a bus write of one: an operand register takes the word written to it (20_memory.md R84). -/
theorem readCtl_writeCtl (q : CtlReg) :
    (s.writeCtl q w).readCtl r = if r = q ∧ r ∈ operandRegs then w else s.readCtl r := by
  cases q <;> cases r <;> rfl

end

/-! ## What stands behind a change -/

/-- Settles O26: of the five things a step can do, a command and reset alone reach the key, and of the commands KEYEXP and
KCLR alone. -/
theorem rkChangesOnlyByKeyCommands : Obligations.RkChangesOnlyByKeyCommands := by
  unfold Obligations.RkChangesOnlyByKeyCommands
  intro s t h hne
  rcases step_data_cases h with hsame | ⟨hreset, _⟩ | ⟨i, u, hnext, hexec, hsame⟩ | ⟨r, w, _, _, hsame⟩ |
    ⟨_, k, w, _, _, _, _, hsame⟩
  · exact absurd ⟨hsame.rk, hsame.kv, hsame.dir⟩ hne
  · exact .inr (.inr hreset)
  · rw [hsame.rk, hsame.kv, hsame.dir] at hne ⊢
    rcases exec_key_cases hexec with hkey | ⟨d, rfl, hkeyexp⟩ | ⟨rfl, hkclr⟩
    · exact absurd hkey hne
    · exact .inl ⟨d, hnext, hkeyexp⟩
    · exact .inr (.inl ⟨hnext, hkclr⟩)
  · exact absurd (by simp [hsame.rk, hsame.kv, hsame.dir]) hne
  · exact absurd (by simp [hsame.rk, hsame.kv, hsame.dir]) hne

/-- Settles O27: of the five things a step can do, a command and reset alone reach RES, and of the commands the primitives
alone. -/
theorem resChangesOnlyByPrimitives : Obligations.ResChangesOnlyByPrimitives := by
  unfold Obligations.ResChangesOnlyByPrimitives
  intro s t h hne
  rcases step_data_cases h with hsame | ⟨hreset, _⟩ | ⟨i, u, hnext, hexec, hsame⟩ | ⟨r, w, _, _, hsame⟩ |
    ⟨_, k, w, _, _, _, _, hsame⟩
  · exact absurd hsame.res hne
  · exact .inr hreset
  · rcases exec_res_cases hexec with hprim | hres
    · exact .inl ⟨i, hprim, hnext⟩
    · exact absurd (hsame.res.trans hres) hne
  · exact absurd (by simp [hsame.res]) hne
  · exact absurd (by simp [hsame.res]) hne

/-- Settles O28: no command and no write of BUF reaches an operand register, and a bus write of a register reaches that one
alone, which then reads as the word written. -/
theorem operandRegistersChangeOnlyByBusWrite : Obligations.OperandRegistersChangeOnlyByBusWrite := by
  unfold Obligations.OperandRegistersChangeOnlyByBusWrite
  intro s t r h hr hne
  rcases step_data_cases h with hsame | ⟨hreset, _⟩ | ⟨i, u, _, hexec, hsame⟩ | ⟨q, w, rest, hp, hsame⟩ |
    ⟨_, k, w, _, _, _, _, hsame⟩
  · exact absurd (hsame.readCtl hr) hne
  · exact .inr hreset
  · exact absurd ((hsame.readCtl hr).trans ((exec_sameOperands hexec).readCtl hr)) hne
  · rw [hsame.readCtl hr, readCtl_writeCtl] at hne ⊢
    by_cases hq : r = q
    · subst hq
      exact .inl ⟨rest, by rw [if_pos ⟨rfl, hr⟩, hp]⟩
    · exact absurd (if_neg fun hqr => hq hqr.1) hne
  · have hmem : s.SameOperands (s.memWrite k (unbe32 w)) := ⟨rfl, rfl, rfl, rfl, rfl, rfl⟩
    exact absurd ((hsame.readCtl hr).trans (hmem.readCtl hr)) hne

/-- Settles O29: a command that changes a byte is CRYPT over its output window, and a window write changes the four
bytes of one aligned word (20_memory.md R75, R81), which fixes its offset from the byte's address. -/
theorem bufChangesOnlyByWindowAndCrypt : Obligations.BufChangesOnlyByWindowAndCrypt := by
  unfold Obligations.BufChangesOnlyByWindowAndCrypt
  intro s t a h hne
  rcases step_data_cases h with hsame | ⟨hreset, _⟩ | ⟨i, u, hnext, hexec, hsame⟩ | ⟨r, w, _, _, hsame⟩ |
    ⟨o, k, w, rest, hp, halign, ho, hsame⟩
  · exact absurd (by rw [hsame.buf]) hne
  · exact .inr (.inr hreset)
  · obtain ⟨rfl, hcrypt⟩ := exec_changes_byte hexec (hsame.buf ▸ hne)
    exact .inr (.inl ⟨hnext, hcrypt⟩)
  · exact absurd (by rw [hsame.buf, writeCtl_buf]) hne
  · have hword : k ≤ a ∧ a < k + 4 := by
      by_contra hout
      exact hne (hsame.buf ▸ memWrite_read_outside (unbe32 w) hout)
    exact .inl ⟨o, w, rest, hp, by omega⟩

/-- No step writes the parameters. -/
theorem step_keeps_cfg (h : step s = .next t) : t.cfg = s.cfg := by
  rcases step_data_cases h with hsame | ⟨_, hcfg⟩ | ⟨i, u, _, hexec, hsame⟩ | ⟨r, w, _, _, hsame⟩ | ⟨_, k, w, _, _, _, _, hsame⟩
  · exact hsame.cfg
  · exact hcfg
  · exact hsame.cfg.trans (exec_sameOperands hexec).cfg
  · exact hsame.cfg.trans (writeCtl_cfg s r w)
  · exact hsame.cfg

/-- Settles O37: ID reads as a constant and BUFSIZE as the parameter, which no step writes. -/
theorem parametersNeverChange : Obligations.ParametersNeverChange := by
  unfold Obligations.ParametersNeverChange
  intro s t h
  have hcfg : t.cfg = s.cfg := step_keeps_cfg h
  exact ⟨hcfg, rfl, congrArg (fun c : Config => BitVec.ofNat 32 c.bufBytes) hcfg⟩

/-! ## STATUS -/

theorem directionFlag_getLsbD_zero (d : Direction) : (directionFlag d).getLsbD 0 = decide (d = .decrypt) := by
  cases d <;> rfl

/-- Bit by bit, STATUS is BUSY = 0, KV, DIR, ERR, and from bit 4 on ECODE with zeros above it (10_state.md R34, R48). -/
theorem statusWord_getLsbD (s : State) (n : Nat) :
    s.statusWord.getLsbD n =
      match n with
      | 0 => false
      | 1 => s.kv
      | 2 => decide (s.dir = .decrypt)
      | 3 => s.err
      | j + 4 => s.ecode.bits.getLsbD j := by
  simp only [State.statusWord, BitVec.getLsbD_append]
  match n with
  | 0 => simp
  | 1 => simp
  | 2 => simpa using directionFlag_getLsbD_zero s.dir
  | 3 => simp
  | j + 4 => simpa using BitVec.lt_of_getLsbD

/-- Settles O24: STATUS is read off bit by bit, and the numbers of the error codes are their definition. -/
theorem statusWordLayout : Obligations.StatusWordLayout := by
  unfold Obligations.StatusWordLayout
  intro s
  refine ⟨statusWord_getLsbD s 0, statusWord_getLsbD s 1, statusWord_getLsbD s 2, statusWord_getLsbD s 3, ?_, ?_,
    rfl, rfl, rfl, rfl, rfl, rfl, rfl⟩
  · refine BitVec.eq_of_getLsbD_eq fun j hj => ?_
    rw [BitVec.getLsbD_extractLsb', Nat.add_comm 4 j, statusWord_getLsbD]
    simp [hj]
  · refine BitVec.eq_of_getLsbD_eq fun j _ => ?_
    have hbit : 8 + j = (j + 4) + 4 := by omega
    rw [BitVec.getLsbD_extractLsb', hbit, statusWord_getLsbD]
    simp

/-! ## The reset state -/

/-- Settles O39: each register is read once, and BUF lists no byte. -/
theorem startStateIsReset : Obligations.StartStateIsReset := by
  unfold Obligations.StartStateIsReset
  refine ⟨fun r hr => ?_, rfl, rfl, fun i => ?_, fun a => rfl⟩
  · revert r
    decide
  · exact Vector.getElem_replicate i.isLt

end Sys2Proof.Machine

/-!
SUPPORT. The host bus and the BUF window (20_memory.md R74, R75, R80-R85): what stands at an offset, what a read and a write of
it do and answer, and what a read of an UNWRITTEN byte leaves, over the bus and in a command.
-/

namespace Sys2Proof.Machine

variable {s t u : State} {o : Offset}

/-! ## What stands at an offset -/

theorem ctlOffset_aligned (r : CtlReg) : (ctlOffset r).toNat % 4 = 0 := by
  cases r <;> rfl

/-- The last register before the subkeys is RES, at 0x024 (10_state.md R32). -/
theorem ctlOffset_lt (r : CtlReg) : (ctlOffset r).toNat < 0x028 := by
  cases r <;> decide

theorem placeAt_rk (c : Config) {i : Fin 32} (ho : o.toNat = 0x080 + 4 * i) : placeAt c o = some (.rk i) := by
  rcases placeAt_cases c o with ⟨_, _⟩ | ⟨_, e⟩ | ⟨_, _, _⟩ | ⟨_, _, _⟩
  · omega
  · rw [e]
    congr 3
    omega
  · omega
  · omega

theorem placeAt_window {c : Config} {k : Nat} (ho : o.toNat = 0x100 + k) (hk : k < c.bufBytes) :
    placeAt c o = some (.buf k) := by
  rcases placeAt_cases c o with ⟨_, _⟩ | ⟨_, _⟩ | ⟨_, _, e⟩ | ⟨_, _, _⟩
  · omega
  · omega
  · rw [e, ho, Nat.add_sub_cancel_left]
  · omega

/-- Nothing stands at a reserved offset (20_memory.md R83). -/
theorem placeAt_reserved (h : Reserved s o) : placeAt s.cfg o = none := by
  unfold Reserved at h
  rcases placeAt_cases s.cfg o with ⟨_, e⟩ | ⟨_, _⟩ | ⟨_, _, _⟩ | ⟨_, _, e⟩
  · rw [e, Option.map_eq_none_iff, Option.eq_none_iff_forall_ne_some]
    intro r hr
    have hoff := ctlAt_eq_some hr
    have hlt := ctlOffset_lt r
    omega
  · omega
  · omega
  · exact e

/-! ## Window words and windows with an UNWRITTEN byte -/

/-- A window word of written bytes is read most significant byte first (20_memory.md R75). -/
theorem windowWord_of_bytes {k : Nat} {v : Vector Byte 4} (h : HoldsBytes s k v) : s.windowWord k = some (be32 v 0) := by
  have h0 : s.buf.read k = some v[0] := h 0
  have h1 : s.buf.read (k + 1) = some v[1] := h 1
  have h2 : s.buf.read (k + 2) = some v[2] := h 2
  have h3 : s.buf.read (k + 3) = some v[3] := h 3
  simp [State.windowWord, h0, h1, h2, h3, be32]

theorem windowWord_of_unwritten {k : Nat} {j : Fin 4} (h : s.buf.read (k + j) = none) : s.windowWord k = none := by
  unfold State.windowWord
  split
  · rename_i b0 b1 b2 b3 h0 h1 h2 h3
    have hall : ∀ i : Fin 4, s.buf.read (k + i) ≠ none := by
      simp [Fin.forall_fin_succ, h0, h1, h2, h3]
    exact absurd h (hall j)
  · rfl

/-- A window word gives no data exactly when one of its bytes is UNWRITTEN (20_memory.md R74). -/
theorem windowWord_eq_none_iff {k : Nat} : s.windowWord k = none ↔ ∃ j : Fin 4, s.buf.read (k + j) = none := by
  refine ⟨fun hnone => ?_, fun ⟨_, h⟩ => windowWord_of_unwritten h⟩
  by_contra hwritten
  have hbytes : ∀ j : Fin 4, ∃ b, s.buf.read (k + j) = some b := fun j =>
    Option.ne_none_iff_exists'.1 fun h => hwritten ⟨j, h⟩
  choose v hv using hbytes
  have hword : s.windowWord k = some (be32 (Vector.ofFn v) 0) := windowWord_of_bytes fun j => by simp [hv]
  simp [hword] at hnone

theorem written_eq_false_iff {a n : Nat} : s.written a n = false ↔ ∃ k : Fin n, s.buf.read (a + k) = none := by
  simp [State.written, Fin.exists_iff]

/-- A `MemRead` that meets an UNWRITTEN byte sets the mark and takes free values (logs 4 and 5). -/
theorem afterRead_of_unwritten {a n : Nat} {k : Fin n} (h : s.buf.read (a + k) = none) :
    s.afterRead a n = { s with modelFault := true, freeIndex := s.freeIndex + 1 } := by
  have hw : s.written a n = false := written_eq_false_iff.2 ⟨k, h⟩
  rcases afterRead_cases s a n with ⟨hw', _⟩ | ⟨_, e⟩
  · simp [hw] at hw'
  · exact e

/-- A `MemRead` that sets the mark met an UNWRITTEN byte. -/
theorem unwritten_of_afterRead_sets_mark {a n : Nat} (hs : s.modelFault = false) (h : (s.afterRead a n).modelFault = true) :
    ∃ k : Fin n, s.buf.read (a + k) = none := by
  rcases afterRead_cases s a n with ⟨_, e⟩ | ⟨hw, _⟩
  · simp [e, hs] at h
  · exact written_eq_false_iff.1 hw

/-! ## What a bus access of each place does -/

theorem busRead_malformed (s : State) {w : Width} (h : (Transaction.read o w).wf = false) :
    s.busRead o w = s.respond .busError := by
  simp [State.busRead, h]

theorem busWrite_malformed (s : State) {w : Width} {d : Word} (h : (Transaction.write o w d).wf = false) :
    s.busWrite o w d = .next (s.respond .busError) := by
  simp [State.busWrite, h]

section
variable (halign : o.toNat % 4 = 0)
include halign

theorem read_wf : (Transaction.read o .four).wf = true := (wf_iff _).2 ⟨rfl, halign⟩

theorem write_wf (d : Word) : (Transaction.write o .four d).wf = true := (wf_iff _).2 ⟨rfl, halign⟩

theorem busRead_ctl {r : CtlReg} (h : placeAt s.cfg o = some (.ctl r)) :
    s.busRead o .four = s.respond (.okData (s.readCtl r)) := by
  simp [State.busRead, read_wf halign, h]

theorem busRead_rk {i : Fin 32} (h : placeAt s.cfg o = some (.rk i)) :
    s.busRead o .four = s.respond (.okData s.rk[i]) := by
  simp [State.busRead, read_wf halign, h]

theorem busRead_window_written {k : Nat} {w : Word} (h : placeAt s.cfg o = some (.buf k)) (hw : s.windowWord k = some w) :
    s.busRead o .four = s.respond (.okData w) := by
  simp [State.busRead, read_wf halign, h, hw]

theorem busRead_window_unwritten {k : Nat} (h : placeAt s.cfg o = some (.buf k)) (hw : s.windowWord k = none) :
    s.busRead o .four = s.markModelFault.respond .modelFault := by
  simp [State.busRead, read_wf halign, h, hw]

theorem busRead_reserved (h : placeAt s.cfg o = none) : s.busRead o .four = s.respond .busError := by
  simp [State.busRead, read_wf halign, h]

theorem busWrite_ctl {r : CtlReg} (hr : r ≠ .cmd) (d : Word) (h : placeAt s.cfg o = some (.ctl r)) :
    s.busWrite o .four d = .next ((s.writeCtl r d).respond .ok) := by
  simp [State.busWrite, write_wf halign, h]

theorem busWrite_rk {i : Fin 32} (d : Word) (h : placeAt s.cfg o = some (.rk i)) :
    s.busWrite o .four d = .next (s.respond .ok) := by
  simp [State.busWrite, write_wf halign, h]

theorem busWrite_window {k : Nat} (d : Word) (h : placeAt s.cfg o = some (.buf k)) :
    s.busWrite o .four d = .next ((s.memWrite k (unbe32 d)).respond .ok) := by
  simp [State.busWrite, write_wf halign, h]

theorem busWrite_reserved (d : Word) (h : placeAt s.cfg o = none) : s.busWrite o .four d = .next (s.respond .busError) := by
  simp [State.busWrite, write_wf halign, h]

end

/-! ## What the bus answers -/

/-- A bus read that only answers changes nothing else of the core. -/
theorem answers_read {w : Width} {r : Response}
    (h : ∀ rest, ({ s with pending := rest } : State).busRead o w = ({ s with pending := rest } : State).respond r) :
    Answers s (.bus (.read o w)) r :=
  fun rest => congrArg Host.Outcome.next (h rest)

theorem answers_readCtl (s : State) (r : CtlReg) : Answers s (readWord (ctlOffset r)) (.okData (s.readCtl r)) :=
  answers_read fun rest => by
    rw [busRead_ctl (ctlOffset_aligned r) (placeAt_ctlOffset _ r)]
    cases r <;> rfl

/-- Settles O34: the bus checks width and alignment before it looks at the offset. -/
theorem malformedAccessIsBusError : Obligations.MalformedAccessIsBusError := by
  unfold Obligations.MalformedAccessIsBusError
  intro s o width w hbad
  have hmalformed : ∀ tr : Transaction, tr.width = width → tr.offset = o → tr.wf = false := by
    rintro tr rfl rfl
    rw [Bool.eq_false_iff, Ne, wf_iff]
    exact fun ⟨hwidth, halign⟩ => hbad.elim (fun h => h hwidth) (fun h => h halign)
  exact ⟨answers_read fun _ => busRead_malformed _ (hmalformed _ rfl rfl),
    fun _ => busWrite_malformed _ (hmalformed _ rfl rfl)⟩

/-- Settles O32: each offset is the place that stands there, and each place is read once. -/
theorem readSemantics : Obligations.ReadSemantics := by
  unfold Obligations.ReadSemantics
  intro s
  refine ⟨answers_readCtl s .id, answers_readCtl s .status, answers_readCtl s .cmd, answers_readCtl s .bufsize,
    answers_readCtl s .keyOff, answers_readCtl s .keyLen, answers_readCtl s .inOff, answers_readCtl s .outOff,
    answers_readCtl s .arg, answers_readCtl s .res, fun i o ho => ?_, fun j o v ho hj hv => ?_, fun o halign hres => ?_⟩
  · exact answers_read fun _ => busRead_rk (by omega) (placeAt_rk _ ho)
  · exact answers_read fun _ => busRead_window_written (by omega) (placeAt_window ho hj) (windowWord_of_bytes hv)
  · exact answers_read fun _ => busRead_reserved halign (placeAt_reserved hres)

/-- Settles O55: a window word with an UNWRITTEN byte gives no data, which is the bus read's one case that sets the mark. -/
theorem readOfUnwrittenSetsMark : Obligations.ReadOfUnwrittenSetsMark := by
  unfold Obligations.ReadOfUnwrittenSetsMark
  intro s j o k ho hj hk rest
  have hread : ({ s with pending := rest } : State).busRead o .four =
      ({ s with pending := rest } : State).markModelFault.respond .modelFault :=
    busRead_window_unwritten (by omega) (placeAt_window ho hj) (windowWord_of_unwritten hk)
  exact congrArg Host.Outcome.next hread

/-! ## What a bus write does -/

section
variable (s : State) (r : CtlReg) (w : Word)

@[simp] theorem writeCtl_modelFault : (s.writeCtl r w).modelFault = s.modelFault := by cases r <;> rfl
@[simp] theorem writeCtl_pending : (s.writeCtl r w).pending = s.pending := by cases r <;> rfl
@[simp] theorem writeCtl_responses : (s.writeCtl r w).responses = s.responses := by cases r <;> rfl

end

/-- A write of a register other than CMD. -/
theorem answersOkAs_writeCtl (s : State) {r : CtlReg} (hr : r ≠ .cmd) (w : Word) :
    AnswersOkAs s (writeWord (ctlOffset r) w) (s.writeCtl r w) := by
  intro rest
  have hwrite := busWrite_ctl (s := { s with pending := rest }) (ctlOffset_aligned r) hr w (placeAt_ctlOffset _ r)
  refine hwrite.trans ?_
  cases r <;> rfl

/-- A write to CMD leaves what its command leaves (44_command_control.md R260). -/
theorem answersOkAs_cmdWrite {c : Word} (h : issueCommand c s = .next t) : AnswersOkAs s (cmdWrite c) t := by
  intro rest
  have hissue : issueCommand c (s.withHost rest s.responses) = .next (t.withHost rest s.responses) := by
    rw [issueCommand_withHost, h]
    rfl
  have hevent := hostEvent_cmdWrite c (s.withHost rest s.responses)
  rw [hissue] at hevent
  exact hevent

/-- Settles O33: each offset is the place that stands there, and each place is written once. -/
theorem writeSemantics : Obligations.WriteSemantics := by
  unfold Obligations.WriteSemantics
  intro s w
  refine ⟨answersOkAs_writeCtl s (r := .keyOff) (by decide) w, answersOkAs_writeCtl s (r := .keyLen) (by decide) w,
    answersOkAs_writeCtl s (r := .inOff) (by decide) w, answersOkAs_writeCtl s (r := .outOff) (by decide) w,
    answersOkAs_writeCtl s (r := .arg) (by decide) w, fun o ho => ?_, fun i o ho rest => ?_, fun j o ho hj => ?_,
    fun t ht => answersOkAs_cmdWrite ht, fun o halign hres rest => ?_⟩
  · simp only [List.mem_cons, List.not_mem_nil, or_false] at ho
    rcases ho with rfl | rfl | rfl | rfl
    · exact answersOkAs_writeCtl s (r := .id) (by decide) w
    · exact answersOkAs_writeCtl s (r := .status) (by decide) w
    · exact answersOkAs_writeCtl s (r := .bufsize) (by decide) w
    · exact answersOkAs_writeCtl s (r := .res) (by decide) w
  · exact busWrite_rk (by omega) w (placeAt_rk _ ho)
  · have hbyte := memWrite_read s (4 * j) (unbe32 w)
    exact ⟨(s.memWrite (4 * j) (unbe32 w)).buf, fun _ => busWrite_window (by omega) w (placeAt_window ho hj),
      hbyte 0, hbyte 1, hbyte 2, hbyte 3, fun a ha => memWrite_read_outside (unbe32 w) (by omega)⟩
  · exact busWrite_reserved halign w (placeAt_reserved hres)

/-! ## The host's side of a step -/

/-- The issue of a command word leaves the host's side as it is. -/
theorem issueCommand_keeps_host {c : Word} (h : issueCommand c s = .next u) :
    u.pending = s.pending ∧ u.responses = s.responses := by
  rcases issueCommand_cases h with ⟨_, _, hexec⟩ | rfl
  · exact exec_keeps_host hexec
  · exact ⟨rfl, rfl⟩

/-- Settles O36: every event but a reset between transactions is answered once, and only a reset during a command is answered
abandoned. -/
theorem eachTransactionIsAnsweredOnce : Obligations.EachTransactionIsAnsweredOnce := by
  unfold Obligations.EachTransactionIsAnsweredOnce
  intro s t e rest hp h
  rcases step_cases h with ⟨hidle, _⟩ | ⟨e', rest', hp', hevent⟩
  · simp [hp] at hidle
  obtain ⟨rfl, rfl⟩ : e = e' ∧ rest = rest' := by simpa [hp] using hp'
  rcases hevent with ⟨rfl, rfl⟩ | ⟨_, rfl, rfl⟩ | ⟨_, r, _, hr, rfl⟩ | ⟨_, _, _, _, _, _, _, rfl⟩ | ⟨_, u, _, hissue, rfl⟩ |
    ⟨r, w, _, _, rfl⟩ | ⟨_, _, _, _, _, _, _, rfl⟩
  · exact ⟨rfl, fun ⟨_, htr⟩ => by simp at htr⟩
  · exact ⟨rfl, fun ⟨_, htr⟩ => by simp at htr⟩
  · exact ⟨rfl, fun _ => ⟨r, hr, rfl⟩⟩
  · exact ⟨rfl, fun _ => ⟨.modelFault, by decide, rfl⟩⟩
  · obtain ⟨hpending, hresponses⟩ := issueCommand_keeps_host hissue
    exact ⟨hpending, fun _ => ⟨.ok, by decide, by rw [respond_responses, hresponses]⟩⟩
  · exact ⟨writeCtl_pending _ r w, fun _ => ⟨.ok, by decide, by rw [respond_responses, writeCtl_responses]⟩⟩
  · exact ⟨rfl, fun _ => ⟨.ok, by decide, rfl⟩⟩

/-! ## The model fault mark -/

/-- A command that sets the mark is a KEYEXP or a CRYPT over a window with an UNWRITTEN byte. -/
theorem exec_sets_mark {i : Instr} (h : exec i s = .next t) (hs : s.modelFault = false) (ht : t.modelFault = true) :
    (∃ (d : Direction) (k : Fin 16), i = .keyexp d ∧ s.buf.read (s.keyOff.toNat + k) = none) ∨
    (∃ k : Fin 16, i = .crypt ∧ s.buf.read (s.inOff.toNat + k) = none) := by
  rcases exec_cases h with ⟨_, _, _, rfl⟩ | ⟨_, rfl⟩ | ⟨_, rfl⟩ | ⟨_, rfl⟩ | ⟨_, rfl⟩ | ⟨d, hi, _, _, rfl⟩ |
    ⟨hi, _, _, _, rfl⟩
  case inr.inr.inr.inr.inr.inl =>
    obtain ⟨k, hk⟩ := unwritten_of_afterRead_sets_mark hs ht
    exact .inl ⟨d, k, hi, hk⟩
  case inr.inr.inr.inr.inr.inr =>
    obtain ⟨k, hk⟩ := unwritten_of_afterRead_sets_mark hs ht
    exact .inr ⟨k, hi, hk⟩
  all_goals simp [hs] at ht

/-- Settles O31: of the events a step can take, a bus read of a window word without data and a command alone reach the
mark. -/
theorem modelFaultOnlyFromUnwritten : Obligations.ModelFaultOnlyFromUnwritten := by
  unfold Obligations.ModelFaultOnlyFromUnwritten
  intro s t h hs ht
  rcases step_cases h with ⟨_, rfl⟩ | ⟨e, rest, hp, hevent⟩
  · simp [hs] at ht
  rcases hevent with ⟨_, rfl⟩ | ⟨_, _, rfl⟩ | ⟨_, _, _, _, rfl⟩ | ⟨o, k, rfl, _, ho, hk, hnone, rfl⟩ |
    ⟨c, u, rfl, hissue, rfl⟩ | ⟨r, w, _, _, rfl⟩ | ⟨_, _, _, _, _, _, _, rfl⟩
  · simp [hs] at ht
  · simp [hs] at ht
  · simp [hs] at ht
  · obtain ⟨j, hj⟩ := windowWord_eq_none_iff.1 hnone
    exact .inr (.inr ⟨o, rest, j, hp, by omega, by omega, by rwa [ho, Nat.add_sub_cancel_left]⟩)
  · rcases issueCommand_cases hissue with ⟨i, rfl, hexec⟩ | rfl
    · rcases exec_sets_mark hexec hs ht with ⟨d, k, rfl, hk⟩ | ⟨k, rfl, hk⟩
      · exact .inl ⟨d, k, ⟨rest, hp⟩, hk⟩
      · exact .inr (.inl ⟨k, ⟨rest, hp⟩, hk⟩)
    · simp [hs] at ht
  · simp [hs] at ht
  · simp [hs] at ht

/-! ## Commands over a window with an UNWRITTEN byte -/

/-- The words K[0..35] are the key-schedule sequence of the key (41_key_schedule.md R174-R176). -/
theorem keySequence_keyWord (key : Vector Byte 16) : KeySequence key (keyWord key) := by
  refine ⟨fun j => ?_, fun i => ?_⟩
  · have hword := keyWindow_getElem key 0 j j.isLt
    rw [Nat.zero_add] at hword
    rw [← hword]
    fin_cases j <;> rfl
  · rw [← keyWindow_getElem key i 1 (by decide), ← keyWindow_getElem key i 2 (by decide),
      ← keyWindow_getElem key i 3 (by decide), ← roundConstant_eq, ← keyWindow_getElem key (i + 1) 3 (by decide)]
    rfl

/-- The schedule is stored in the order of its direction (R177). -/
theorem storedInOrder_keySchedule (key : Vector Byte 16) (d : Direction) :
    StoredInOrder d (keyWord key) (keySchedule key d) := by
  intro i
  cases d
  · exact keySchedule_encrypt key i i.isLt
  · exact keySchedule_decrypt key i i.isLt

/-- KEYEXP that passes its checks. -/
theorem exec_keyexp_checked (d : Direction) (hlen : s.keyLen = 16) (hfits : Fits s s.keyOff) :
    exec (.keyexp d) s =
      .next (((s.afterRead s.keyOff.toNat 16).installKey (keySchedule (s.memRead s.keyOff.toNat 16) d) d).succeed) := by
  rcases exec_keyexp_cases d s with ⟨hn, _⟩ | ⟨_, hn, _⟩ | ⟨_, _, e⟩
  · exact absurd hlen hn
  · simp [(windowFits_iff s s.keyOff).2 hfits] at hn
  · exact e

/-- CRYPT that passes its checks. -/
theorem exec_crypt_checked (hkv : s.kv = true) (hin : Fits s s.inOff) (hout : Fits s s.outOff) :
    exec .crypt s =
      .next (((s.afterRead s.inOff.toNat 16).memWrite s.outOff.toNat
        (blockTransform s.rk (s.memRead s.inOff.toNat 16))).succeed) := by
  rcases exec_crypt_cases s with ⟨hn, _⟩ | ⟨_, hn, _⟩ | ⟨_, _, hn, _⟩ | ⟨_, _, _, e⟩
  · simp [hkv] at hn
  · simp [(windowFits_iff s s.inOff).2 hin] at hn
  · simp [(windowFits_iff s s.outOff).2 hout] at hn
  · exact e

/-- Settles O20: the key is the 16 bytes the `MemRead` gives, free ones where BUF is UNWRITTEN. -/
theorem keyexpOverUnwrittenSetsMark : Obligations.KeyexpOverUnwrittenSetsMark := by
  unfold Obligations.KeyexpOverUnwrittenSetsMark
  intro s d k hlen hfits hk
  refine ⟨s.memRead s.keyOff.toNat 16, keyWord _, keySchedule _ d, keySequence_keyWord _, storedInOrder_keySchedule _ d,
    fun j b hb => memRead_getElem j.isLt hb, ?_⟩
  rw [exec_keyexp_checked d hlen hfits, afterRead_of_unwritten hk]
  rfl

/-- Settles O21: the bytes are the transform of the block the `MemRead` gives, free ones where BUF is UNWRITTEN. -/
theorem cryptOverUnwrittenSetsMark : Obligations.CryptOverUnwrittenSetsMark := by
  unfold Obligations.CryptOverUnwrittenSetsMark
  intro s k hkv hin hout hk
  have hexec := exec_crypt_checked hkv hin hout
  rw [afterRead_of_unwritten hk] at hexec
  exact ⟨_, _, hexec, rfl, memWrite_read _ _ _, fun a ha => memWrite_read_outside _ ha⟩

end Sys2Proof.Machine

/-!
SUPPORT. The encoding (30_encoding.md R110-R114): the fields of a command's word, the round trip of decoder and encoder, and
the words that no command has.
-/

namespace Sys2Proof.Machine

variable {c e : Word}

/-! ## The fields of a word -/

theorem dField_eq_decrypt_iff : dField c = .decrypt ↔ c.getLsbD 8 = true := by
  simp [dField]

/-- RSV, D and OP are the whole word (R110). -/
theorem eq_of_fields (hrsv : rsvField c = rsvField e) (hd : dField c = dField e) (hop : opField c = opField e) : c = e := by
  refine BitVec.eq_of_getLsbD_eq fun k hk => ?_
  rcases Nat.lt_trichotomy k 8 with hlt | rfl | hgt
  · have hbit := congrArg (·.getLsbD k) hop
    simpa [opField, hlt] using hbit
  · rw [Bool.eq_iff_iff, ← dField_eq_decrypt_iff, ← dField_eq_decrypt_iff, hd]
  · obtain ⟨j, rfl⟩ := Nat.exists_eq_add_of_le (show 9 ≤ k from hgt)
    have hbit := congrArg (·.getLsbD j) hrsv
    simpa [rsvField, show j < 23 by omega] using hbit

/-- Every command has its row of R112. -/
theorem tableRow_statement : ∀ i : Instr, Laws.TableRow.Statement i
  | .nop => Laws.TableRow.nop
  | .keyexp d => Laws.TableRow.keyexp d
  | .crypt => Laws.TableRow.crypt
  | .kclr => Laws.TableRow.kclr
  | .eclr => Laws.TableRow.eclr
  | .tau => Laws.TableRow.tau
  | .lkey => Laws.TableRow.lkey
  | .tkey => Laws.TableRow.tkey
  | .ldif => Laws.TableRow.ldif
  | .tslow => Laws.TableRow.tslow
  | .tfast => Laws.TableRow.tfast
  | .tbl => Laws.TableRow.tbl

@[simp] theorem rsvField_encode (i : Instr) : rsvField (encode i) = 0 := by
  obtain ⟨_, hrsv, _⟩ := tableRow_statement i
  exact hrsv

@[simp] theorem opField_encode (i : Instr) : opField (encode i) = opcode i := by
  obtain ⟨_, _, hop, _⟩ := tableRow_statement i
  exact hop

/-- D = 1 stands in KEYEXP's word only (R110). -/
theorem opcode_of_dField_encode {i : Instr} (h : dField (encode i) = .decrypt) : opcode i = 0x01 := by
  cases i
  case keyexp => rfl
  all_goals exact absurd h (by decide)

@[simp] theorem opcode_withDirection (i : Instr) (d : Direction) : opcode (i.withDirection d) = opcode i := by
  cases i <;> rfl

/-- A row's command performed with D = `d` has D = `d` in its word, where R110 lets `d` be 1. -/
theorem dField_encode_row {row : OpcodeRow} {d : Direction} (hrow : row ∈ opcodeRows)
    (hd : d = .decrypt → opcode row.instr = 0x01) : dField (encode (row.instr.withDirection d)) = d := by
  have hrows : ∀ r ∈ opcodeRows, dField (encode (r.instr.withDirection .encrypt)) = .encrypt ∧
      (opcode r.instr = 0x01 → dField (encode (r.instr.withDirection .decrypt)) = .decrypt) := by decide
  obtain ⟨hencrypt, hdecrypt⟩ := hrows row hrow
  cases d
  · exact hencrypt
  · exact hdecrypt (hd rfl)

/-! ## The round trip -/

/-- A command's word decodes to the command (44_command_control.md R261). -/
@[simp] theorem decode_encode (i : Instr) : decode (encode i) = .ok i := by
  obtain ⟨_, _, _, hdecode, _⟩ := tableRow_statement i
  exact hdecode

/-- Settles O1: a selected word is the word of its row's command, and each command's word is selected by its row. -/
theorem decodeAgreesWithEncode : Obligations.DecodeAgreesWithEncode := by
  unfold Obligations.DecodeAgreesWithEncode
  refine fun c i => ⟨encode_of_decode, ?_⟩
  rintro rfl
  exact decode_encode i

/-- Settles O2, by the model's own lemmas about the words of R112. -/
theorem opcodeMapWordsDecode : Obligations.OpcodeMapWordsDecode := by
  unfold Obligations.OpcodeMapWordsDecode
  exact ⟨decode_word_nop, decode_word_keyexp_encrypt, decode_word_keyexp_decrypt, decode_word_crypt, decode_word_tkey,
    decode_word_tbl⟩

/-! ## Illegal words -/

/-- The OP values R114 calls listed are those of the rows of R112. -/
theorem mem_listedOps_iff {op : Byte} :
    op ∈ [0x00, 0x01, 0x02, 0x03, 0x04, 0x10, 0x11, 0x12, 0x20, 0x21, 0x22, 0x23] ↔
      ∃ row ∈ opcodeRows, opcode row.instr = op := by
  rw [← List.mem_map]
  exact Iff.rfl

/-- A command's word is in none of R114's classes. -/
theorem not_illegalWord_encode (i : Instr) : ¬ IllegalWord (encode i) := by
  rintro (hrsv | ⟨hd, hop⟩ | hop)
  · exact hrsv (rsvField_encode i)
  · exact hop ((opField_encode i).trans (opcode_of_dField_encode hd))
  · rw [opField_encode] at hop
    cases i <;> simp [opcode] at hop

/-- A word in none of R114's classes is a command's word: its OP gives the row, and D the direction. -/
theorem exists_encode_of_not_illegalWord (h : ¬ IllegalWord c) : ∃ i, encode i = c := by
  obtain ⟨hrsv, hd, hop⟩ : rsvField c = 0 ∧ (dField c = .decrypt → opField c = 0x01) ∧
      opField c ∈ [0x00, 0x01, 0x02, 0x03, 0x04, 0x10, 0x11, 0x12, 0x20, 0x21, 0x22, 0x23] := by
    simpa only [IllegalWord, not_or, not_and, not_not] using h
  obtain ⟨row, hrow, hopcode⟩ := mem_listedOps_iff.1 hop
  refine ⟨row.instr.withDirection (dField c), eq_of_fields ?_ ?_ ?_⟩
  · rw [rsvField_encode, hrsv]
  · exact dField_encode_row hrow fun hdir => hopcode.trans (hd hdir)
  · rw [opField_encode, opcode_withDirection, hopcode]

/-- R114's three classes hold exactly the words no command has. -/
theorem illegalWord_iff : IllegalWord c ↔ ∀ i, encode i ≠ c := by
  refine ⟨fun h i hi => not_illegalWord_encode i (hi ▸ h), fun h => ?_⟩
  by_contra hlegal
  obtain ⟨i, hi⟩ := exists_encode_of_not_illegalWord hlegal
  exact h i hi

/-- The issue of a word no command has (44_command_control.md R265). -/
theorem issueCommand_of_no_command (s : State) (h : ∀ i, encode i ≠ c) :
    issueCommand c s = .next (withError s .illegalCmd) := by
  unfold issueCommand
  split
  · exact absurd (encode_of_decode ‹_›) (h _)
  · rfl

/-- Settles O3: a word of R114's classes has no command, so its issue records the error alone. -/
theorem illegalWordsRecordIllegalCmd : Obligations.IllegalWordsRecordIllegalCmd := by
  unfold Obligations.IllegalWordsRecordIllegalCmd
  have hanswer : ∀ c s, IllegalWord c → AnswersOkAs s (cmdWrite c) (withError s .illegalCmd) :=
    fun _ s hc => answersOkAs_cmdWrite (issueCommand_of_no_command s (illegalWord_iff.1 hc))
  have hreserved : ∀ c, rsvField c ≠ 0 → IllegalWord c := fun _ => .inl
  have hdirection : IllegalWord 0x00000100 := .inr (.inl (by decide))
  have ⟨hop05, hopFF⟩ : IllegalWord 0x00000005 ∧ IllegalWord 0x000000FF := ⟨.inr (.inr (by decide)), .inr (.inr (by decide))⟩
  exact ⟨fun _ => illegalWord_iff, hanswer, hdirection, hreserved _ (by decide), hop05, hreserved _ (by decide), hopFF, rfl⟩

end Sys2Proof.Machine

/-!
SUPPORT. The constant ROM (40_constants.md) and the checks on it of R149: CRYPT in place, repeated, chains the block
transform; the tables follow the rules that produce them; the standard key and block give the known answers.
-/

namespace Sys2Proof.Machine

/-! ## CRYPT in place -/

section
variable {s : State} {block : Vector Byte 16}

theorem exec_crypt_inPlace (h : BlockReady s block) (hinPlace : s.outOff = s.inOff) :
    exec .crypt s = .next (s.memWrite s.inOff.toNat (blockTransform s.rk block)).succeed := by
  obtain ⟨hkv, hin, hout, hblock⟩ := h
  rw [exec_crypt_written hkv hin hout hblock, hinPlace]

/-- After CRYPT in place the next CRYPT finds the output as its input (43_block_transform.md R237). -/
theorem blockReady_after_crypt (h : BlockReady s block) :
    BlockReady (s.memWrite s.inOff.toNat (blockTransform s.rk block)).succeed (blockTransform s.rk block) := by
  obtain ⟨hkv, hin, hout, _⟩ := h
  exact ⟨hkv, hin, hout, memWrite_read _ _ _⟩

end

theorem repeatCrypt_succ {n : Nat} {s t : State} (h : exec .crypt s = .next t) :
    repeatCrypt (n + 1) s = repeatCrypt n t := by
  rw [repeatCrypt, h]

/-- The chain of CRYPTs in place; a state that starts with ECODE = 0 keeps it, which the induction needs for the last CRYPT. -/
theorem repeatCrypt_inPlace (n : Nat) {s : State} {block : Vector Byte 16} (h : BlockReady s block)
    (hinPlace : s.outOff = s.inOff) :
    ∃ t, repeatCrypt n s = .next t ∧ HoldsBytes t s.inOff.toNat (chainedTransform s.rk n block) ∧
      t.rk = s.rk ∧ t.modelFault = s.modelFault ∧ (n ≠ 0 ∨ s.ecode = .ok → t.ecode = .ok) := by
  induction n generalizing s block with
  | zero =>
    obtain ⟨_, _, _, hblock⟩ := h
    exact ⟨s, rfl, hblock, rfl, rfl, fun hok => hok.resolve_left (absurd rfl)⟩
  | succ n ih =>
    obtain ⟨t, hrun, hblock, hrk, hmark, hok⟩ := ih (blockReady_after_crypt h) hinPlace
    rw [repeatCrypt_succ (exec_crypt_inPlace h hinPlace)]
    exact ⟨t, hrun, hblock, hrk, hmark, fun _ => hok (.inr rfl)⟩

/-- Settles O57, by induction on the number of CRYPTs: after each, the state is ready for the next. -/
theorem repeatedCryptChainsTransform : Obligations.RepeatedCryptChainsTransform := by
  unfold Obligations.RepeatedCryptChainsTransform
  intro n s block h hinPlace
  obtain ⟨t, hrun, hblock, hrk, hmark, hok⟩ := repeatCrypt_inPlace n h hinPlace
  exact ⟨t, hrun, hblock, hrk, hmark, fun hn => hok (.inl hn)⟩

/-! ## Rotations, and the mixing tables -/

theorem getMsbD_rotl (w : Word) (n k : Nat) : (rotl w n).getMsbD k = (decide (k < 32) && w.getMsbD ((n + k) % 32)) :=
  BitVec.getMsbD_rotateLeft

theorem rotl_rotl_comm (w : Word) (m n : Nat) : rotl (rotl w m) n = rotl (rotl w n) m := by
  refine BitVec.eq_of_getMsbD_eq fun k _ => ?_
  simp only [getMsbD_rotl, Nat.mod_lt, Nat.add_mod_mod, Nat.add_left_comm m n k, Nat.zero_lt_succ, decide_true, Bool.true_and]

theorem rotl_xor (a b : Word) (n : Nat) : rotl (a ^^^ b) n = rotl a n ^^^ rotl b n := by
  refine BitVec.eq_of_getMsbD_eq fun k hk => ?_
  simp [getMsbD_rotl, hk]

theorem getLsbD_rotl (w : Word) {n i : Nat} (hn : n < 32) (hi : i < 32) :
    (rotl w n).getLsbD i = w.getLsbD ((i + (32 - n)) % 32) := by
  rw [rotl, BitVec.getLsbD_rotateLeft_of_le hn]
  rcases Nat.lt_or_ge i n with hlt | hge
  · rw [decide_eq_true hlt, cond_true, Nat.mod_eq_of_lt (by omega)]; congr 1; omega
  · rw [decide_eq_false (by omega), cond_false, decide_eq_true hi, Bool.true_and]; congr 1; omega

theorem rotl_rotl (w : Word) (m n : Nat) (hmn : m + n < 32) : rotl (rotl w m) n = rotl w (m + n) := by
  refine BitVec.eq_of_getLsbD_eq fun i hi => ?_
  rw [getLsbD_rotl _ (by omega) hi, getLsbD_rotl _ (by omega) (Nat.mod_lt _ (by decide)), getLsbD_rotl _ hmn hi]
  congr 1
  omega

theorem lRound_xor (a b : Word) : lRound (a ^^^ b) = lRound a ^^^ lRound b := by
  simp only [lRound, rotl_xor]
  ac_rfl

/-- L commutes with rotation, since it is a sum of rotations (42_round_function.md R200). -/
theorem lRound_rotr (w : Word) (n : Nat) : lRound (rotr w n) = rotr (lRound w) n := by
  simp only [lRound, rotr, rotl_xor, rotl_rotl_comm w _ ((32 - n) % 32)]

/-- The byte at position 0, rotated right, stands where a smaller shift puts it: no bit of it wraps around. -/
theorem rotr_byte_shiftLeft (b : Byte) {n : Nat} (hn : n ≤ 24) :
    rotr (b.setWidth 32 <<< 24) n = b.setWidth 32 <<< (24 - n) := by
  refine BitVec.eq_of_getMsbD_eq fun k hk => ?_
  simp only [rotr, getMsbD_rotl, BitVec.getMsbD_shiftLeft, BitVec.getMsbD_setWidth, hk, decide_true, Bool.true_and]
  rcases Nat.lt_or_ge k n with hlt | hge
  · rw [show ((32 - n) % 32 + k) % 32 = 32 - n + k by omega, BitVec.getMsbD_of_ge b (32 - n + k + 24 + 8 - 32) (by omega),
      decide_eq_false (show ¬ 32 - 8 ≤ k + (24 - n) by omega), Bool.and_false, Bool.false_and]
  · rw [show ((32 - n) % 32 + k) % 32 + 24 = k + (24 - n) by omega]

/-- The table the ROM lists is generated (40_constants.md R144, R146). -/
theorem mixTable0_generated (b : Byte) : mixTable0 b = lRound ((sbox b).setWidth 32 <<< 24) := by
  revert b; decide +kernel

/-- Settles O43: R146's table is evaluated, and R147's rotations of it follow since L commutes with rotation. -/
theorem mixingTablesAreGenerated : Obligations.MixingTablesAreGenerated := by
  unfold Obligations.MixingTablesAreGenerated
  intro j b
  calc mixTable j b = rotr (mixTable0 b) (8 * j.toNat) := rfl
    _ = lRound (rotr ((sbox b).setWidth 32 <<< 24) (8 * j.toNat)) := by rw [mixTable0_generated, lRound_rotr]
    _ = lRound ((sbox b).setWidth 32 <<< (24 - 8 * j.toNat)) := by rw [rotr_byte_shiftLeft _ (by omega)]

/-! ## Evaluation of the ROM and the known answers -/

/-- Settles O54: the formula is evaluated at the 32 indices. -/
theorem roundConstantsFollowFormula : Obligations.RoundConstantsFollowFormula := by
  unfold Obligations.RoundConstantsFollowFormula
  decide +kernel

/-- Settles O53: one key expansion and one block, evaluated. -/
theorem standardKnownAnswers : Obligations.StandardKnownAnswers := by
  unfold Obligations.StandardKnownAnswers
  exact ⟨by decide +kernel, by decide +kernel, by decide +kernel⟩

/-! ## Words and their bytes -/

theorem getLsbD_ofBytes (b0 b1 b2 b3 : Byte) {p q : Nat} (hp : p < 8) (hq : q < 4) :
    (ofBytes b0 b1 b2 b3).getLsbD (8 * q + p) = ([b3, b2, b1, b0].getD q 0).getLsbD p := by
  simp only [ofBytes, BitVec.getLsbD_append]
  interval_cases q
  · simp [hp]
  · simp [show ¬ 8 + p < 8 by omega, hp]
  · simp [show ¬ 16 + p < 8 by omega, hp, show 16 + p - 8 = 8 + p by omega]
  · simp [show ¬ 24 + p < 8 by omega, hp, show 24 + p - 8 = 16 + p by omega, show ¬ 16 + p < 8 by omega, show 16 + p - 8 = 8 + p by omega]

theorem byteAt_getLsbD (w : Word) {p q : Nat} (hp : p < 8) : (byteAt w q).getLsbD p = w.getLsbD (24 - 8 * q + p) := by
  simp [byteAt, hp]

theorem ofBytes_bytes (w : Word) : ofBytes (byte0 w) (byte1 w) (byte2 w) (byte3 w) = w := by
  refine BitVec.eq_of_getLsbD_eq fun i hi => ?_
  obtain ⟨q, p, hq, hp, rfl⟩ : ∃ q p, q < 4 ∧ p < 8 ∧ i = 8 * q + p := ⟨i / 8, i % 8, by omega, by omega, by omega⟩
  rw [getLsbD_ofBytes _ _ _ _ hp hq]
  interval_cases q <;> exact byteAt_getLsbD w hp

theorem byteAt_ofBytes (b0 b1 b2 b3 : Byte) {k : Nat} (hk : k < 4) :
    byteAt (ofBytes b0 b1 b2 b3) k = [b0, b1, b2, b3].getD k 0 := by
  refine BitVec.eq_of_getLsbD_eq fun p hp => ?_
  rw [byteAt_getLsbD _ hp, show 24 - 8 * k + p = 8 * (3 - k) + p by omega, getLsbD_ofBytes _ _ _ _ hp (by omega)]
  interval_cases k <;> rfl

/-- A bit of τ is a bit of S at the byte it stands in. -/
theorem getLsbD_tau (w : Word) {p q : Nat} (hp : p < 8) (hq : q < 4) :
    (tau w).getLsbD (8 * q + p) = (sbox (w.extractLsb' (8 * q) 8)).getLsbD p := by
  rw [tau, getLsbD_ofBytes _ _ _ _ hp hq]
  interval_cases q <;> rfl

/-- A byte moved up by `k` bytes is byte `k` of a word that is 0 elsewhere. -/
theorem getLsbD_byte_shiftLeft (b : Byte) (k : Nat) {p q : Nat} (hp : p < 8) (hq : q < 4) :
    (b.setWidth 32 <<< (8 * k)).getLsbD (8 * q + p) = (decide (q = k) && b.getLsbD p) := by
  rw [BitVec.getLsbD_shiftLeft, BitVec.getLsbD_setWidth, decide_eq_true (by omega), Bool.true_and]
  rcases Nat.lt_trichotomy q k with hlt | rfl | hgt
  · rw [decide_eq_true (by omega), decide_eq_false (show ¬ q = k by omega), Bool.false_and, Bool.not_true, Bool.false_and]
  · rw [decide_eq_false (by omega), decide_eq_true (by omega), decide_eq_true rfl, Nat.add_sub_cancel_left]; rfl
  · rw [BitVec.getLsbD_of_ge b _ (by omega), decide_eq_false (show ¬ q = k by omega), Bool.and_false, Bool.and_false,
      Bool.false_and]

/-- A word is the sum of its bytes, each at its place. -/
theorem ofBytes_eq_xor (b0 b1 b2 b3 : Byte) :
    ofBytes b0 b1 b2 b3 = b0.setWidth 32 <<< (8 * 3) ^^^ b1.setWidth 32 <<< (8 * 2) ^^^ b2.setWidth 32 <<< (8 * 1) ^^^
      b3.setWidth 32 <<< (8 * 0) := by
  refine BitVec.eq_of_getLsbD_eq fun i hi => ?_
  obtain ⟨q, p, hq, hp, rfl⟩ : ∃ q p, q < 4 ∧ p < 8 ∧ i = 8 * q + p := ⟨i / 8, i % 8, by omega, by omega, by omega⟩
  simp only [getLsbD_ofBytes _ _ _ _ hp hq, BitVec.getLsbD_xor, getLsbD_byte_shiftLeft _ _ hp hq]
  interval_cases q <;> simp

/-! ## The rounds as a sequence of words (42_round_function.md R203, 43_block_transform.md R235) -/

/-- The two forms of the round function agree (42_round_function.md R203): the tables hold L of each byte of τ's result. -/
theorem tFast_eq_tSlow (a : Word) : tFast a = tSlow a := by
  have hgen : ∀ j b, mixTable j b = lRound ((sbox b).setWidth 32 <<< (24 - 8 * j.toNat)) := mixingTablesAreGenerated
  rw [tFast, tSlow, tau, ofBytes_eq_xor, lRound_xor, lRound_xor, lRound_xor]
  exact congrArg₂ _ (congrArg₂ _ (congrArg₂ _ (hgen 0 _) (hgen 1 _)) (hgen 2 _)) (hgen 3 _)

theorem roundForm_eq (i : Nat) (a : Word) : roundForm i a = lRound (tau a) := by
  unfold roundForm
  split
  · rfl
  · exact tFast_eq_tSlow a

/-- The word a round makes (43_block_transform.md R231, R235). -/
def nextWord (key w0 w1 w2 w3 : Word) : Word := w0 ^^^ lRound (tau (w1 ^^^ w2 ^^^ w3 ^^^ key))

/-- One round: the oldest word goes, the new one comes last (43_block_transform.md R235). -/
def slideStep (w : Vector Word 4) (key : Word) : Vector Word 4 := #v[w[1], w[2], w[3], nextWord key w[0] w[1] w[2] w[3]]

/-- A round for each key. -/
def slide (keys : List Word) (w : Vector Word 4) : Vector Word 4 := keys.foldl slideStep w

/-- One block: the rounds, then the words in reversed order (R233). -/
def slideBlock (keys : List Word) (w : Vector Word 4) : Vector Word 4 := (slide keys w).reverse

/-- The rounds update their four words in place; the oldest stands at the round's index (43_block_transform.md R231, R235). -/
theorem roundsUpTo_getElem (rk : Vector Word 32) (x : Vector Word 4) {n : Nat} (hn : n ≤ 32) {j : Nat} (hj : j < 4) :
    (roundsUpTo rk x n hn)[(n + j) % 4] = (slide (rk.toList.take n) x)[j] := by
  induction n generalizing j with
  | zero => simp [roundsUpTo, slide, Nat.mod_eq_of_lt hj]
  | succ n ih =>
    have ih := @ih (by omega)
    have hslide : slide (rk.toList.take (n + 1)) x = slideStep (slide (rk.toList.take n) x) rk[n] := by
      rw [List.take_succ_eq_append_getElem (by simpa using hn), slide, List.foldl_concat]
      simp [slide]
    rw [roundsUpTo_succ, roundStep_getElem, roundForm_eq, hslide]
    match j, hj with
    | 0, _ => rw [if_neg (by omega)]; exact ih (j := 1) (by decide)
    | 1, _ => rw [if_neg (by omega)]; exact ih (j := 2) (by decide)
    | 2, _ => rw [if_neg (by omega)]; exact ih (j := 3) (by decide)
    | 3, _ =>
      rw [if_pos (by omega), ih (j := 1) (by decide), ih (j := 2) (by decide), ih (j := 3) (by decide)]
      exact congrArg (· ^^^ _) (ih (j := 0) (by decide))

/-- Byte `k` of word `j` of the output block (43_block_transform.md R233). -/
theorem getElem_outputBlock (x : Vector Word 4) {j k : Nat} (hj : j < 4) (hk : k < 4) :
    (outputBlock x)[4 * j + k] = (unbe32 x[3 - j])[k] := by
  change (unbe32 x[3] ++ unbe32 x[2] ++ unbe32 x[1] ++ unbe32 x[0] : Vector Byte (4 + 4 + 4 + 4))[4 * j + k] = _
  simp only [Vector.getElem_append]
  interval_cases j <;>
    simp [hk, show k < 8 by omega, show k < 12 by omega, show 4 + k < 8 by omega, show 4 + k < 12 by omega,
      show 8 + k < 12 by omega]

/-- The words of the output block, in order (43_block_transform.md R233). -/
theorem blockWords_outputBlock (x : Vector Word 4) : blockWords (outputBlock x) = x.reverse := by
  have hword : ∀ j (hj : j < 4), be32 (outputBlock x) (4 * j) = x[3 - j] := by
    intro j hj
    change ofBytes (outputBlock x)[4 * j + 0] (outputBlock x)[4 * j + 1] (outputBlock x)[4 * j + 2]
      (outputBlock x)[4 * j + 3] = _
    rw [getElem_outputBlock x hj (k := 0) (by decide), getElem_outputBlock x hj (k := 1) (by decide),
      getElem_outputBlock x hj (k := 2) (by decide), getElem_outputBlock x hj (k := 3) (by decide)]
    exact ofBytes_bytes _
  ext j hj : 1
  match j, hj with
  | 0, _ => simpa [blockWords] using hword 0 (by decide)
  | 1, _ => simpa [blockWords] using hword 1 (by decide)
  | 2, _ => simpa [blockWords] using hword 2 (by decide)
  | 3, _ => simpa [blockWords] using hword 3 (by decide)

theorem blockWords_blockTransform (rk : Vector Word 32) (block : Vector Byte 16) :
    blockWords (blockTransform rk block) = slideBlock rk.toList (blockWords block) := by
  have hrounds : roundsUpTo rk (blockWords block) 32 (Nat.le_refl 32) = slide rk.toList (blockWords block) := by
    ext j hj : 1
    have hword := roundsUpTo_getElem rk (blockWords block) (Nat.le_refl 32) hj
    rw [List.take_of_length_le (by simp)] at hword
    simpa only [show (32 + j) % 4 = j by omega] using hword
  rw [blockTransform_eq, blockWords_outputBlock, slideBlock, hrounds]

theorem blockWords_chainedTransform (rk : Vector Word 32) (n : Nat) (block : Vector Byte 16) :
    blockWords (chainedTransform rk n block) = (slideBlock rk.toList)^[n] (blockWords block) := by
  induction n generalizing block with
  | zero => rfl
  | succ n ih => rw [chainedTransform_succ, ih, blockWords_blockTransform, Function.iterate_succ_apply]

theorem byteAt_blockWords (block : Vector Byte 16) {j k : Nat} (hj : j < 4) (hk : k < 4) :
    byteAt (blockWords block)[j] k = block[4 * j + k] := by
  match j, hj with
  | 0, _ => exact (byteAt_ofBytes _ _ _ _ hk).trans (by interval_cases k <;> rfl)
  | 1, _ => exact (byteAt_ofBytes _ _ _ _ hk).trans (by interval_cases k <;> rfl)
  | 2, _ => exact (byteAt_ofBytes _ _ _ _ hk).trans (by interval_cases k <;> rfl)
  | 3, _ => exact (byteAt_ofBytes _ _ _ _ hk).trans (by interval_cases k <;> rfl)

theorem blockWords_injective : Function.Injective blockWords := by
  intro a b h
  ext i hi : 1
  obtain ⟨j, k, hj, hk, rfl⟩ : ∃ j k, j < 4 ∧ k < 4 ∧ i = 4 * j + k := ⟨i / 4, i % 4, by omega, by omega, by omega⟩
  rw [← byteAt_blockWords a hj hk, ← byteAt_blockWords b hj hk, h]

/-! ## GF(2^8) and the algebraic form of the S-box (40_constants.md R141) -/

theorem gfTimesX_xor (a b : Byte) : gfTimesX (a ^^^ b) = gfTimesX a ^^^ gfTimesX b := by
  have hreduce : ∀ p q : Bool, (if p ^^ q then (0xF5 : Byte) else 0) = (if p then 0xF5 else 0) ^^^ (if q then 0xF5 else 0) := by
    decide
  simp only [gfTimesX, BitVec.getLsbD_xor, BitVec.shiftLeft_xor_distrib, hreduce]
  ac_rfl

/-- The product commutes with a factor x on the left. -/
theorem gfMul_gfTimesX (a b : Byte) : gfMul (gfTimesX a) b = gfTimesX (gfMul a b) := by
  unfold gfMul
  induction (List.range 8).map b.getLsbD generalizing a with
  | nil => exact (show gfTimesX 0 = 0 by decide).symm
  | cons bit bits ih => cases bit <;> simp [gfMulBits, gfTimesX_xor, ih]

theorem one_gfMul : ∀ b : Byte, gfMul 1 b = b := by decide +kernel

theorem gfMul_zero : ∀ a : Byte, gfMul a 0 = 0 := by decide +kernel

/-- The powers of x. -/
def gfPower : Nat → Byte
  | 0 => 1
  | n + 1 => gfTimesX (gfPower n)

/-- Products of powers of x: what makes every statement about the field one about exponents. -/
theorem gfMul_gfPower (m n : Nat) : gfMul (gfPower m) (gfPower n) = gfPower (m + n) := by
  induction m with
  | zero => rw [Nat.zero_add]; exact one_gfMul _
  | succ m ih => rw [Nat.succ_add, gfPower, gfPower, gfMul_gfTimesX, ih]

/-! x has the order 255. -/

theorem gfPower_255 : gfPower 255 = 1 := by decide +kernel

theorem gfPower_ne_one : ∀ n < 255, n ≠ 0 → gfPower n ≠ 1 := by decide +kernel

theorem gfPower_mul_255 (m : Nat) : gfPower (255 * m) = 1 := by
  induction m with
  | zero => rfl
  | succ m ih => rw [Nat.mul_succ, ← gfMul_gfPower, ih, one_gfMul, gfPower_255]

theorem gfPower_ne_zero (n : Nat) : gfPower n ≠ 0 := by
  intro hzero
  have hone : gfPower (255 * n) = 0 := by
    rw [show 255 * n = 254 * n + n by omega, ← gfMul_gfPower, hzero, gfMul_zero]
  rw [gfPower_mul_255] at hone
  exact absurd hone (by decide)

theorem gfPower_ne {m n : Nat} (hmn : m < n) (hn : n < 255) : gfPower m ≠ gfPower n := by
  intro h
  refine gfPower_ne_one (n - m) (by omega) (by omega) ?_
  calc gfPower (n - m) = gfMul (gfPower 255) (gfPower (n - m)) := by rw [gfPower_255, one_gfMul]
    _ = gfMul (gfPower (255 - m)) (gfPower n) := by rw [gfMul_gfPower, gfMul_gfPower]; congr 1; omega
    _ = gfPower 255 := by rw [← h, gfMul_gfPower, Nat.sub_add_cancel (by omega)]
    _ = 1 := gfPower_255

/-- x is primitive: its 255 different powers are all the bytes but 0. -/
theorem exists_gfPower {a : Byte} (ha : a ≠ 0) : ∃ m, gfPower m = a := by
  have hinj : Function.Injective fun m : Fin 255 => (⟨gfPower m, gfPower_ne_zero m⟩ : {a : Byte // a ≠ 0}) := by
    intro m n h
    have hpower : gfPower m = gfPower n := congrArg Subtype.val h
    rcases Nat.lt_trichotomy m n with hlt | heq | hgt
    · exact absurd hpower (gfPower_ne hlt n.isLt)
    · exact Fin.ext heq
    · exact absurd hpower.symm (gfPower_ne hgt m.isLt)
  have hcard : Fintype.card (Fin 255) = Fintype.card {a : Byte // a ≠ 0} := by decide +kernel
  obtain ⟨m, hm⟩ := ((Fintype.bijective_iff_injective_and_card _).2 ⟨hinj, hcard⟩).surjective ⟨a, ha⟩
  exact ⟨m, congrArg Subtype.val hm⟩

theorem gfSquares_gfPower (n m : Nat) : gfSquares n (gfPower m) = gfPower ((2 ^ n - 1) * (2 * m)) := by
  induction n generalizing m with
  | zero => rw [pow_zero, Nat.sub_self, Nat.zero_mul]; rfl
  | succ n ih =>
    obtain ⟨k, hk⟩ : ∃ k, 2 ^ n = k + 1 := Nat.exists_eq_add_one.2 (Nat.two_pow_pos n)
    rw [gfSquares, gfMul_gfPower, ih, gfMul_gfPower, pow_succ, hk, Nat.add_sub_cancel, show (k + 1) * 2 - 1 = 2 * k + 1 by omega]
    congr 1
    ring

theorem gfInverse_gfPower (m : Nat) : gfInverse (gfPower m) = gfPower (254 * m) := by
  rw [gfInverse, gfSquares_gfPower]; congr 1; omega

/-- I inverts every byte but 0. -/
theorem gfMul_gfInverse {a : Byte} (ha : a ≠ 0) : gfMul a (gfInverse a) = 1 := by
  obtain ⟨m, rfl⟩ := exists_gfPower ha
  rw [gfInverse_gfPower, gfMul_gfPower, show m + 254 * m = 255 * m by omega, gfPower_mul_255]

/-- Inverses are unique. -/
theorem gfInverse_eq_of_gfMul {a b : Byte} (h : gfMul a b = 1) (ha : a ≠ 0) : gfInverse a = b := by
  have hb : b ≠ 0 := by
    rintro rfl
    rw [gfMul_zero] at h
    exact absurd h (by decide)
  obtain ⟨m, rfl⟩ := exists_gfPower ha
  obtain ⟨n, rfl⟩ := exists_gfPower hb
  calc gfInverse (gfPower m) = gfMul (gfPower (254 * m)) (gfPower 0) := by rw [gfInverse_gfPower, gfMul_gfPower, Nat.add_zero]
    _ = gfMul (gfPower (254 * m)) (gfPower (m + n)) := by rw [← gfMul_gfPower m n, h]; rfl
    _ = gfMul (gfPower (255 * m)) (gfPower n) := by rw [gfMul_gfPower, gfMul_gfPower]; congr 1; omega
    _ = gfPower n := by rw [gfPower_mul_255, one_gfMul]

/-- The sum of the rotations of `c` left by i, over the bits i of `x`: a circulant matrix by its columns. -/
def circulant (c x : Byte) : Byte :=
  (List.range 8).foldl (fun y i => if x.getLsbD i then y ^^^ c.rotateLeft i else y) 0

/-- A is circulant; its first column is 0xCB. -/
theorem affineMatrix_eq_circulant : ∀ x : Byte, affineMatrix x = circulant 0xCB x := by decide +kernel

/-- What I must give at A·x ⊕ C for R141 to hold: A⁻¹·(S(x) ⊕ C). A⁻¹ is circulant with first column 0x85. -/
def sboxCore (x : Byte) : Byte := circulant 0x85 (sbox x ^^^ 0xD3)

theorem sbox_eq_circulant_sboxCore : ∀ x : Byte, sbox x = circulant 0xCB (sboxCore x) ^^^ 0xD3 := by decide +kernel

/-- The table against the field: `sboxCore x` is the inverse of A·x ⊕ C, or both are 0. -/
theorem sboxCore_inverts : ∀ x : Byte,
    (circulant 0xCB x ^^^ 0xD3 = 0 ∧ sboxCore x = 0) ∨
    (circulant 0xCB x ^^^ 0xD3 ≠ 0 ∧ gfMul (circulant 0xCB x ^^^ 0xD3) (sboxCore x) = 1) := by decide +kernel

theorem gfInverse_zero : gfInverse 0 = 0 := by decide +kernel

theorem gfInverse_eq_sboxCore (x : Byte) : gfInverse (circulant 0xCB x ^^^ 0xD3) = sboxCore x := by
  rcases sboxCore_inverts x with ⟨hx, hcore⟩ | ⟨hx, hmul⟩
  · rw [hx, hcore, gfInverse_zero]
  · exact gfInverse_eq_of_gfMul hmul hx

/-- Settles O44: the table is held to the field's product, and I is the one function that inverts it. -/
theorem sboxHasAlgebraicForm : Obligations.SboxHasAlgebraicForm := by
  unfold Obligations.SboxHasAlgebraicForm
  refine ⟨fun x => ?_, gfInverse_zero, fun x => gfMul_gfInverse⟩
  rw [affineMatrix_eq_circulant, affineMatrix_eq_circulant, gfInverse_eq_sboxCore]
  exact sbox_eq_circulant_sboxCore x

end Sys2Proof.Machine

/-!
SUPPORT. R149's 1,000,000-fold value (40_constants.md R149 item 3), by bit slicing. Blocks of the chain every 500 transforms
are listed; one run of the sliced cipher carries 250 of them, side by side in the lanes of a few natural numbers, through
their 500 transforms at once. Eight runs make the chain, so that the kernel evaluates 4000 transforms and not 1,000,000.
-/

namespace Sys2Proof.Machine.Slice

/-! ## Lanes

A word of each of `N` lanes is held in one natural number of 32 slots of `N` bits: bit `l` of a slot belongs to lane `l`. The
four bits that stand at one place of the four bytes have neighbouring slots, so that the S-box works on four slots at once.
The functions name the operations of `Nat` (`Nat.xor`, not `^^^`): these the kernel evaluates at once. -/

/-- The bit a slot holds: slot 4p + q is for bit p of byte q, bytes counted from the least significant. -/
def bitOfSlot (s : Nat) : Nat := 8 * (s % 4) + s / 4

theorem bitOfSlot_eq {p q : Nat} (hq : q < 4) : bitOfSlot (4 * p + q) = 8 * q + p := by
  unfold bitOfSlot; omega

/-- What lane `l` holds in slot `s`. -/
def laneBit (N l a s : Nat) : Bool := a.testBit (s * N + l)

/-- Lane `l` of `a` holds the word `w`. -/
def Lane (N l a : Nat) (w : Word) : Prop := ∀ q < 4, ∀ p < 8, laneBit N l a (4 * p + q) = w.getLsbD (8 * q + p)

theorem Lane.eq {N l a : Nat} {v w : Word} (hv : Lane N l a v) (hw : Lane N l a w) : v = w := by
  refine BitVec.eq_of_getLsbD_eq fun i hi => ?_
  have hbit := (hv (i / 8) (by omega) (i % 8) (by omega)).symm.trans (hw (i / 8) (by omega) (i % 8) (by omega))
  rwa [Nat.div_add_mod] at hbit

section
variable {N l : Nat}

@[simp] theorem laneBit_xor (a b s : Nat) : laneBit N l (Nat.xor a b) s = (laneBit N l a s ^^ laneBit N l b s) :=
  Nat.testBit_xor ..

@[simp] theorem laneBit_land (a b s : Nat) : laneBit N l (Nat.land a b) s = (laneBit N l a s && laneBit N l b s) :=
  Nat.testBit_and ..

@[simp] theorem laneBit_shiftRight (a k s : Nat) : laneBit N l (Nat.shiftRight a (Nat.mul k N)) s = laneBit N l a (k + s) := by
  have htest : (a >>> (k * N)).testBit (s * N + l) = a.testBit (k * N + (s * N + l)) := Nat.testBit_shiftRight ..
  rw [← Nat.add_assoc, ← Nat.add_mul] at htest
  exact htest

theorem Lane.xor {a b : Nat} {v w : Word} (hv : Lane N l a v) (hw : Lane N l b w) : Lane N l (Nat.xor a b) (v ^^^ w) := by
  intro q hq p hp
  rw [laneBit_xor, hv q hq p hp, hw q hq p hp, BitVec.getLsbD_xor]

variable (hl : l < N)
include hl

theorem laneBit_shiftLeft (a k s : Nat) :
    laneBit N l (Nat.shiftLeft a (Nat.mul k N)) s = (decide (k ≤ s) && laneBit N l a (s - k)) := by
  have htest : (a <<< (k * N)).testBit (s * N + l) = (decide (k * N ≤ s * N + l) && a.testBit (s * N + l - k * N)) :=
    Nat.testBit_shiftLeft ..
  refine htest.trans ?_
  rcases Nat.lt_or_ge s k with hlt | hge
  · have hout : s * N + l < k * N := by
      calc s * N + l < (s + 1) * N := by rw [Nat.succ_mul]; omega
        _ ≤ k * N := Nat.mul_le_mul_right N hlt
    rw [decide_eq_false (by omega), decide_eq_false (by omega), Bool.false_and, Bool.false_and]
  · obtain ⟨d, rfl⟩ := Nat.exists_eq_add_of_le hge
    rw [Nat.add_mul, Nat.add_assoc, Nat.add_sub_cancel_left, Nat.add_sub_cancel_left, decide_eq_true (by omega),
      decide_eq_true (by omega), laneBit]

end

/-! ## Filling the slots -/

/-- `f s` in each slot `s < n`. -/
def packSlots (N : Nat) (f : Nat → Nat) : Nat → Nat
  | 0 => 0
  | n + 1 => Nat.xor (packSlots N f n) (Nat.shiftLeft (f n) (Nat.mul n N))

/-- In every lane a 1 in the slots of `p`. -/
def slots (N : Nat) (p : Nat → Bool) : Nat := packSlots N (fun s => bif p s then 2 ^ N - 1 else 0) 32

/-- The word `w` in every lane. -/
def everyLane (N : Nat) (w : Word) : Nat := slots N fun s => w.getLsbD (bitOfSlot s)

/-- Bit `b` of the listed numbers, one in each lane. -/
def column (b : Nat) : List Nat → Nat
  | [] => 0
  | m :: ms => Nat.xor (Nat.land (Nat.shiftRight m b) 1) (Nat.shiftLeft (column b ms) 1)

/-- The 32 bits from bit `b` on of the listed numbers, a word in each lane. -/
def packWord (N b : Nat) (ms : List Nat) : Nat := packSlots N (fun s => column (Nat.add b (bitOfSlot s)) ms) 32

section
variable {N l : Nat} (hl : l < N)
include hl

theorem laneBit_packSlots {f : Nat → Nat} (hf : ∀ s, f s < 2 ^ N) (n s : Nat) :
    laneBit N l (packSlots N f n) s = (decide (s < n) && (f s).testBit l) := by
  induction n with
  | zero => rw [packSlots, laneBit, Nat.zero_testBit, decide_eq_false (Nat.not_lt_zero s), Bool.false_and]
  | succ n ih =>
    rw [packSlots, laneBit_xor, ih, laneBit_shiftLeft hl]
    rcases Nat.lt_trichotomy s n with hlt | rfl | hgt
    · simp [hlt, Nat.lt_succ_of_lt hlt, Nat.not_le_of_lt hlt]
    · simp [laneBit]
    · have hbeyond : f n < 2 ^ ((s - n) * N + l) := by
        refine Nat.lt_of_lt_of_le (hf n) (Nat.pow_le_pow_right (by decide) ?_)
        exact Nat.le_add_right_of_le (Nat.le_mul_of_pos_left N (by omega))
      simp [Nat.not_lt_of_lt hgt, show ¬ s < n + 1 by omega, laneBit, Nat.testBit_lt_two_pow hbeyond]

@[simp] theorem laneBit_slots (p : Nat → Bool) (s : Nat) : laneBit N l (slots N p) s = (decide (s < 32) && p s) := by
  rw [slots, laneBit_packSlots hl]
  · cases p s <;> simp [Nat.testBit_two_pow_sub_one, hl]
  · intro s
    have := Nat.two_pow_pos N
    cases p s <;> simp

theorem lane_everyLane (w : Word) : Lane N l (everyLane N w) w := by
  intro q hq p hp
  rw [everyLane, laneBit_slots hl, bitOfSlot_eq hq, decide_eq_true (by omega), Bool.true_and]

end

theorem column_testBit (b l : Nat) (ms : List Nat) : (column b ms).testBit l = (ms.getD l 0).testBit b := by
  induction ms generalizing l with
  | nil => simp [column]
  | cons m ms ih =>
    have hcell : column b (m :: ms) = (m >>> b &&& 1) ^^^ (column b ms <<< 1) := rfl
    have hbit : m >>> b &&& 1 = (m.testBit b).toNat := by
      rw [Nat.toNat_testBit, Nat.and_one_is_mod, Nat.shiftRight_eq_div_pow]
    rw [hcell, hbit, Nat.testBit_xor, Nat.testBit_shiftLeft]
    cases l with
    | zero => rw [List.getD_cons_zero]; cases m.testBit b <;> simp
    | succ l => cases m.testBit b <;> simp [ih, Nat.testBit_succ]

theorem column_lt {N : Nat} (b : Nat) {ms : List Nat} (hms : ms.length ≤ N) : column b ms < 2 ^ N := by
  refine Nat.lt_pow_two_of_testBit _ fun l hl => ?_
  rw [column_testBit, List.getD_eq_default _ _ (by omega), Nat.zero_testBit]

theorem lane_packWord {N l : Nat} (hl : l < N) (b : Nat) {ms : List Nat} (hms : ms.length ≤ N) :
    Lane N l (packWord N b ms) (BitVec.ofNat 32 (ms.getD l 0 >>> b)) := by
  intro q hq p hp
  rw [packWord, laneBit_packSlots hl (fun s => column_lt _ hms), bitOfSlot_eq hq, decide_eq_true (by omega), column_testBit,
    BitVec.getLsbD_ofNat, Nat.testBit_shiftRight, decide_eq_true (by omega)]
  rfl

/-! ## L on lanes -/

/-- Rotation left by `k` bytes. -/
def rotBytes (N k a : Nat) : Nat :=
  Nat.xor (Nat.land (Nat.shiftLeft a (Nat.mul k N)) (slots N fun s => decide (k ≤ s % 4)))
    (Nat.land (Nat.shiftRight a (Nat.mul (4 - k) N)) (slots N fun s => decide (s % 4 < k)))

/-- Rotation left by 2: a bit moves up two places in its byte, or to the next byte from the two top places. -/
def rotTwo (N a : Nat) : Nat :=
  Nat.xor (Nat.land (Nat.shiftLeft a (Nat.mul 8 N)) (slots N fun s => decide (8 ≤ s)))
    (Nat.xor (Nat.land (Nat.shiftRight a (Nat.mul 23 N)) (slots N fun s => decide (s < 8 ∧ s % 4 ≠ 0)))
      (Nat.land (Nat.shiftRight a (Nat.mul 27 N)) (slots N fun s => decide (s < 8 ∧ s % 4 = 0))))

def sliceL (N a : Nat) : Nat :=
  Nat.xor a (Nat.xor (rotBytes N 3 a) (rotTwo N (Nat.xor a (Nat.xor (rotBytes N 1 a) (rotBytes N 2 a)))))

theorem lRound_eq_rotl_two (w : Word) :
    lRound w = w ^^^ (rotl w (8 * 3) ^^^ rotl (w ^^^ (rotl w (8 * 1) ^^^ rotl w (8 * 2))) 2) := by
  rw [rotl_xor, rotl_xor, rotl_rotl w (8 * 1) 2 (by decide), rotl_rotl w (8 * 2) 2 (by decide), lRound]
  ac_rfl

section
variable {N l a : Nat} {w : Word} (hl : l < N)
include hl

theorem lane_rotBytes {k : Nat} (hk : k < 4) (h : Lane N l a w) : Lane N l (rotBytes N k a) (rotl w (8 * k)) := by
  intro q hq p hp
  rw [getLsbD_rotl w (by omega) (by omega)]
  simp only [rotBytes, laneBit_xor, laneBit_land, laneBit_shiftLeft hl, laneBit_shiftRight, laneBit_slots hl,
    show 4 * p + q < 32 by omega, show (4 * p + q) % 4 = q by omega, decide_true, Bool.true_and]
  rcases Nat.lt_or_ge q k with hlt | hge
  · rw [decide_eq_false (show ¬ k ≤ q by omega), decide_eq_true hlt, Bool.and_false, Bool.false_xor, Bool.and_true,
      show 4 - k + (4 * p + q) = 4 * p + (q + 4 - k) by omega,
      show (8 * q + p + (32 - 8 * k)) % 32 = 8 * (q + 4 - k) + p by omega]
    exact h _ (by omega) p hp
  · rw [decide_eq_true hge, decide_eq_true (show k ≤ 4 * p + q by omega), decide_eq_false (show ¬ q < k by omega),
      Bool.and_false, Bool.xor_false, Bool.and_true, Bool.true_and,
      show 4 * p + q - k = 4 * p + (q - k) by omega,
      show (8 * q + p + (32 - 8 * k)) % 32 = 8 * (q - k) + p by omega]
    exact h _ (by omega) p hp

theorem lane_rotTwo (h : Lane N l a w) : Lane N l (rotTwo N a) (rotl w 2) := by
  intro q hq p hp
  rw [getLsbD_rotl w (by omega) (by omega)]
  simp only [rotTwo, laneBit_xor, laneBit_land, laneBit_shiftLeft hl, laneBit_shiftRight, laneBit_slots hl,
    show 4 * p + q < 32 by omega, show (4 * p + q) % 4 = q by omega, decide_true, Bool.true_and]
  rcases Nat.lt_or_ge p 2 with hlow | hhigh
  · rcases Nat.eq_zero_or_pos q with rfl | hpos
    · rw [show (8 * 0 + p + (32 - 2)) % 32 = 8 * 3 + (p + 6) by omega, ← h 3 (by decide) (p + 6) (by omega)]
      simp [show ¬ 8 ≤ 4 * p by omega, show 4 * p < 8 by omega, show 27 + 4 * p = 4 * (p + 6) + 3 by omega]
    · rw [show (8 * q + p + (32 - 2)) % 32 = 8 * (q - 1) + (p + 6) by omega, ← h (q - 1) (by omega) (p + 6) (by omega)]
      simp [show ¬ 8 ≤ 4 * p + q by omega, show 4 * p + q < 8 by omega, show q ≠ 0 by omega,
        show 23 + (4 * p + q) = 4 * (p + 6) + (q - 1) by omega]
  · rw [show (8 * q + p + (32 - 2)) % 32 = 8 * q + (p - 2) by omega, ← h q hq (p - 2) (by omega)]
    simp [show 8 ≤ 4 * p + q by omega, show ¬ 4 * p + q < 8 by omega, show 4 * p + q - 8 = 4 * (p - 2) + q by omega]

theorem lane_sliceL (h : Lane N l a w) : Lane N l (sliceL N a) (lRound w) := by
  have hbytes : ∀ {k}, k < 4 → Lane N l (rotBytes N k a) (rotl w (8 * k)) := fun hk => lane_rotBytes hl hk h
  rw [lRound_eq_rotl_two]
  exact h.xor ((hbytes (by decide)).xor (lane_rotTwo hl (h.xor ((hbytes (by decide)).xor (hbytes (by decide))))))

end

/-! ## τ on lanes -/

section
variable {α β : Type}

/-- The S-box as gates over the bits of a byte, lowest first, with 0x75 added to the byte before and 0xD3 after: then it is
inversion in GF(2^8) between two linear maps (40_constants.md R141), and needs no constant. The y are linear forms of the byte;
the t are inversion in GF(2^4), by the circuit of Boyar and Peralta; the s are sums of the products z. `letI` writes a gate
into the term itself, where it is shared, so that the kernel evaluates it once. -/
def sboxGates (xor and : α → α → α) (x0 x1 x2 x3 x4 x5 x6 x7 : α) (k : α → α → α → α → α → α → α → α → β) : β :=
  letI y21 := xor x3 x5; letI u0 := xor x4 x7; letI u1 := xor x0 u0; letI y13 := xor x0 y21; letI y1 := xor x1 x5;
  letI y12 := xor x2 x6; letI y5 := xor x3 u1; letI y3 := xor x1 y12; letI u2 := xor x2 x4; letI y15 := xor x7 y21;
  letI y6 := xor x2 u1; letI u3 := xor x1 u2; letI y18 := xor x1 u1; letI y7 := xor x0 y1; letI y0 := xor y13 u2;
  letI y10 := xor y1 y6; letI y2 := xor x5 u0; letI y19 := xor x6 y21; letI y9 := xor u0 y1; letI y17 := xor x7 y13;
  letI y14 := xor y13 y12; letI y8 := xor y5 y3; letI y20 := xor x2 y15; letI y11 := xor x3 u3;
  letI t0 := and y12 y15; letI t1 := and y3 y6; letI t2 := xor t1 t0; letI t3 := and x1 y0; letI t4 := xor t3 t0;
  letI t5 := and y13 x0; letI t6 := and y5 y1; letI t7 := xor t6 t5; letI t8 := and y2 y7; letI t9 := xor t8 t5;
  letI t10 := and y9 y11; letI t11 := and y14 y17; letI t12 := xor t11 t10; letI t13 := and y8 y10;
  letI t14 := xor t13 t10; letI t15 := xor t2 t12; letI t16 := xor t4 t14; letI t17 := xor t7 t12;
  letI t18 := xor t9 t14; letI t19 := xor t15 y20; letI t20 := xor t16 y19; letI t21 := xor t17 y21;
  letI t22 := xor t18 y18; letI t23 := xor t19 t20; letI t24 := and t19 t21; letI t25 := xor t22 t24;
  letI t26 := and t23 t25; letI t27 := xor t26 t20; letI t28 := xor t21 t22; letI t29 := xor t20 t24;
  letI t30 := and t29 t28; letI t31 := xor t30 t22; letI t32 := xor t21 t31; letI t33 := xor t25 t31;
  letI t34 := and t22 t33; letI t35 := xor t34 t32; letI t36 := xor t25 t34; letI t37 := and t27 t36;
  letI t38 := xor t23 t37; letI t39 := xor t38 t35; letI t40 := xor t27 t31; letI t41 := xor t27 t38;
  letI t42 := xor t31 t35; letI t43 := xor t40 t39; letI z0 := and t42 y15; letI z1 := and t35 y6;
  letI z2 := and t31 y0; letI z3 := and t41 x0; letI z4 := and t38 y1; letI z5 := and t27 y7; letI z6 := and t40 y11;
  letI z7 := and t43 y17; letI z8 := and t39 y10; letI z9 := and t42 y12; letI z10 := and t35 y3;
  letI z11 := and t31 x1; letI z12 := and t41 y13; letI z13 := and t38 y5; letI z14 := and t27 y2;
  letI z15 := and t40 y9; letI z16 := and t43 y14; letI z17 := and t39 y8; letI v0 := xor z9 z12;
  letI v1 := xor z14 z17; letI v2 := xor z1 v1; letI v3 := xor z10 v0; letI v4 := xor z3 z4; letI v5 := xor z0 v4;
  letI v6 := xor z15 v2; letI v7 := xor z16 v2; letI v8 := xor z2 z8; letI v9 := xor z13 z16; letI v10 := xor z12 v6;
  letI v11 := xor v3 v7; letI v12 := xor z13 v3; letI v13 := xor z7 v8; letI v14 := xor z6 z8;
  letI v15 := xor v5 v13; letI s0 := xor v10 v13; letI s3 := xor v1 v9; letI s1 := xor v5 v11;
  letI v16 := xor z11 z17; letI v17 := xor z6 v11; letI v18 := xor v0 v9; letI v19 := xor z0 v17;
  letI v20 := xor z5 v14; letI s6 := xor z7 v19; letI v21 := xor z3 v20; letI s4 := xor v5 v10;
  letI s2 := xor v12 v15; letI s5 := xor v12 v21; letI s7 := xor v16 v18;
  k s0 s1 s2 s3 s4 s5 s6 s7

end

theorem sboxGates_bits : ∀ x : Byte,
    sboxGates Bool.xor Bool.and (x.getLsbD 0) (x.getLsbD 1) (x.getLsbD 2) (x.getLsbD 3) (x.getLsbD 4) (x.getLsbD 5)
      (x.getLsbD 6) (x.getLsbD 7) (fun b0 b1 b2 b3 b4 b5 b6 b7 => [b0, b1, b2, b3, b4, b5, b6, b7]) =
    (List.range 8).map (sbox (x ^^^ 0x75) ^^^ 0xD3).getLsbD := by decide +kernel

/-- The gates at one bit of eight numbers. -/
theorem sboxGates_testBit (x : Nat → Nat) : ∃ ss : List Nat,
    (∀ k : List Nat → Nat, sboxGates Nat.xor Nat.land (x 0) (x 1) (x 2) (x 3) (x 4) (x 5) (x 6) (x 7)
      (fun s0 s1 s2 s3 s4 s5 s6 s7 => k [s0, s1, s2, s3, s4, s5, s6, s7]) = k ss) ∧
    ∀ (j : Nat) (b : Byte), (∀ p < 8, (x p).testBit j = b.getLsbD p) →
      ss.map (·.testBit j) = (List.range 8).map (sbox (b ^^^ 0x75) ^^^ 0xD3).getLsbD := by
  have hxor : ∀ u v j, (Nat.xor u v).testBit j = Bool.xor (u.testBit j) (v.testBit j) := Nat.testBit_xor
  have hand : ∀ u v j, (Nat.land u v).testBit j = Bool.and (u.testBit j) (v.testBit j) := Nat.testBit_and
  refine ⟨[_, _, _, _, _, _, _, _], fun k => rfl, fun j b hb => ?_⟩
  rw [← sboxGates_bits b, ← hb 0 (by decide), ← hb 1 (by decide), ← hb 2 (by decide), ← hb 3 (by decide), ← hb 4 (by decide),
    ← hb 5 (by decide), ← hb 6 (by decide), ← hb 7 (by decide)]
  simp only [sboxGates, List.map_cons, List.map_nil, hxor, hand]

/-- The four slots of bit `p` of the bytes, moved down to the lowest four. -/
def plane (N p a : Nat) : Nat := Nat.land (Nat.shiftRight a (Nat.mul (4 * p) N)) (slots N fun s => decide (s < 4))

/-- The planes of a word put back to their slots. -/
def joinPlanes (N : Nat) : List Nat → Nat
  | [] => 0
  | x :: xs => Nat.xor x (Nat.shiftLeft (joinPlanes N xs) (Nat.mul 4 N))

/-- `joinPlanes` of eight planes, without the list. -/
def joinEight (N s0 s1 s2 s3 s4 s5 s6 s7 : Nat) : Nat :=
  Nat.xor s0 (Nat.shiftLeft (Nat.xor s1 (Nat.shiftLeft (Nat.xor s2 (Nat.shiftLeft (Nat.xor s3 (Nat.shiftLeft (Nat.xor s4
    (Nat.shiftLeft (Nat.xor s5 (Nat.shiftLeft (Nat.xor s6 (Nat.shiftLeft (Nat.xor s7 (Nat.shiftLeft 0 (Nat.mul 4 N)))
      (Nat.mul 4 N))) (Nat.mul 4 N))) (Nat.mul 4 N))) (Nat.mul 4 N))) (Nat.mul 4 N))) (Nat.mul 4 N))) (Nat.mul 4 N))

def sliceTau (N a : Nat) : Nat :=
  sboxGates Nat.xor Nat.land (plane N 0 a) (plane N 1 a) (plane N 2 a) (plane N 3 a) (plane N 4 a) (plane N 5 a) (plane N 6 a)
    (plane N 7 a) (joinEight N)

section
variable {N l a : Nat} {w : Word} (hl : l < N)
include hl

theorem laneBit_plane (p s : Nat) : laneBit N l (plane N p a) s = (decide (s < 4) && laneBit N l a (4 * p + s)) := by
  rw [plane, laneBit_land, laneBit_shiftRight, laneBit_slots hl, Bool.and_comm]
  congr 1
  by_cases hs : s < 4 <;> simp [hs]
  omega

/-- Planes with nothing above their four slots do not meet when they are joined. -/
theorem laneBit_joinPlanes {xs : List Nat} (hclear : ∀ x ∈ xs, ∀ s, 4 ≤ s → laneBit N l x s = false) (p : Nat) {q : Nat}
    (hq : q < 4) : laneBit N l (joinPlanes N xs) (4 * p + q) = laneBit N l (xs.getD p 0) q := by
  induction xs generalizing p with
  | nil => simp [joinPlanes, laneBit]
  | cons x xs ih =>
    obtain ⟨hx, hxs⟩ := List.forall_mem_cons.1 hclear
    rw [joinPlanes, laneBit_xor, laneBit_shiftLeft hl]
    cases p with
    | zero => simp [show ¬ 4 ≤ q by omega]
    | succ p =>
      rw [hx _ (by omega), decide_eq_true (by omega), Bool.false_xor, Bool.true_and, List.getD_cons_succ,
        show 4 * (p + 1) + q - 4 = 4 * p + q by omega]
      exact ih hxs p

theorem lane_sliceTau (h : Lane N l a w) : Lane N l (sliceTau N a) (tau (w ^^^ 0x75757575) ^^^ 0xD3D3D3D3) := by
  obtain ⟨ss, hgates, hbits⟩ := sboxGates_testBit (plane N · a)
  have hclear : ∀ x ∈ ss, ∀ s, 4 ≤ s → laneBit N l x s = false := by
    intro x hx s hs
    have hzero := hbits (s * N + l) 0 fun p _ => (laneBit_plane hl p s).trans (by simp [show ¬ s < 4 by omega])
    have hmem := List.mem_map_of_mem (f := (·.testBit (s * N + l))) hx
    rw [hzero, show sbox (0 ^^^ 0x75) ^^^ 0xD3 = 0 by decide] at hmem
    obtain ⟨_, _, hbit⟩ := List.mem_map.1 hmem
    exact hbit.symm.trans BitVec.getLsbD_zero
  rw [show sliceTau N a = joinPlanes N ss from hgates (joinPlanes N)]
  intro q hq p hp
  have hbyte := hbits (q * N + l) (w.extractLsb' (8 * q) 8) fun p hp =>
    (laneBit_plane hl p q).trans (by simp [hq, hp, h q hq p hp])
  have hin : (w ^^^ 0x75757575).extractLsb' (8 * q) 8 = w.extractLsb' (8 * q) 8 ^^^ 0x75 := by
    rw [BitVec.extractLsb'_xor]
    interval_cases q <;> rfl
  have hout : (0xD3D3D3D3 : Word).getLsbD (8 * q + p) = (0xD3 : Byte).getLsbD p := by
    revert p hp; interval_cases q <;> decide
  have hget : (ss.map (·.testBit (q * N + l))).getD p false = (ss.getD p 0).testBit (q * N + l) := by
    rw [← Nat.zero_testBit (q * N + l)]
    exact List.getD_map ..
  rw [laneBit_joinPlanes hl hclear p hq, BitVec.getLsbD_xor, getLsbD_tau _ hp hq, hin, hout, ← BitVec.getLsbD_xor]
  rw [laneBit, ← hget, hbyte]
  simp [hp]

end

/-! ## Rounds and blocks on lanes -/

def sliceNextWord (N : Nat) (key : Word) (a0 a1 a2 a3 : Nat) : Nat :=
  Nat.xor a0 (sliceL N (Nat.xor
    (sliceTau N (Nat.xor (Nat.xor a1 a2) (Nat.xor a3 (everyLane N (key ^^^ 0x75757575))))) (everyLane N 0xD3D3D3D3)))

theorem lane_sliceNextWord {N l a0 a1 a2 a3 : Nat} {w0 w1 w2 w3 : Word} (hl : l < N) (key : Word) (h0 : Lane N l a0 w0)
    (h1 : Lane N l a1 w1) (h2 : Lane N l a2 w2) (h3 : Lane N l a3 w3) :
    Lane N l (sliceNextWord N key a0 a1 a2 a3) (nextWord key w0 w1 w2 w3) := by
  have hin := lane_sliceTau hl ((h1.xor h2).xor (h3.xor (lane_everyLane hl (key ^^^ 0x75757575))))
  have hout := hin.xor (lane_everyLane hl 0xD3D3D3D3)
  have hkey : w1 ^^^ w2 ^^^ (w3 ^^^ (key ^^^ 0x75757575)) ^^^ 0x75757575 = w1 ^^^ w2 ^^^ w3 ^^^ key := by
    simp only [BitVec.xor_assoc, BitVec.xor_self, BitVec.xor_zero]
  rw [hkey, BitVec.xor_assoc, BitVec.xor_self, BitVec.xor_zero] at hout
  exact h0.xor (lane_sliceL hl hout)

/-- `k` of a number's value, which the kernel finds before it goes on with `k`. -/
def evaluated {β : Type} (a : Nat) (k : Nat → β) : β :=
  Nat.rec (motive := fun _ => β) (k 0) (fun n _ => k (Nat.succ n)) a

theorem evaluated_eq {β : Type} (a : Nat) (k : Nat → β) : evaluated a k = k a := by
  cases a <;> rfl

section
variable {β : Type}

/-- A round in every lane for each key; by the recursor, which the kernel unfolds in one step. -/
def sliceSlide (N : Nat) (k : Nat → Nat → Nat → Nat → β) (keys : List Word) : Nat → Nat → Nat → Nat → β :=
  List.rec (motive := fun _ => Nat → Nat → Nat → Nat → β) k
    (fun key _ next a0 a1 a2 a3 => evaluated (sliceNextWord N key a0 a1 a2 a3) (next a1 a2 a3)) keys

/-- `n` blocks in every lane. -/
def sliceChain (N : Nat) (keys : List Word) (k : Nat → Nat → Nat → Nat → β) (n : Nat) : Nat → Nat → Nat → Nat → β :=
  Nat.rec (motive := fun _ => Nat → Nat → Nat → Nat → β) k
    (fun _ next => sliceSlide N (fun b0 b1 b2 b3 => next b3 b2 b1 b0) keys) n

/-- Every lane holds its four words. -/
def Lanes (N a0 a1 a2 a3 : Nat) (w : Nat → Vector Word 4) : Prop :=
  ∀ l < N, Lane N l a0 (w l)[0] ∧ Lane N l a1 (w l)[1] ∧ Lane N l a2 (w l)[2] ∧ Lane N l a3 (w l)[3]

theorem lanes_sliceSlide {N : Nat} (k : Nat → Nat → Nat → Nat → β) (keys : List Word) {a0 a1 a2 a3 : Nat}
    {w : Nat → Vector Word 4} (h : Lanes N a0 a1 a2 a3 w) :
    ∃ b0 b1 b2 b3, sliceSlide N k keys a0 a1 a2 a3 = k b0 b1 b2 b3 ∧ Lanes N b0 b1 b2 b3 fun l => slide keys (w l) := by
  induction keys generalizing a0 a1 a2 a3 w with
  | nil => exact ⟨a0, a1, a2, a3, rfl, h⟩
  | cons key keys ih =>
    have hround : sliceSlide N k (key :: keys) a0 a1 a2 a3 = sliceSlide N k keys a1 a2 a3 (sliceNextWord N key a0 a1 a2 a3) :=
      evaluated_eq _ _
    rw [hround]
    refine ih (w := fun l => slideStep (w l) key) fun l hl => ?_
    obtain ⟨h0, h1, h2, h3⟩ := h l hl
    exact ⟨h1, h2, h3, lane_sliceNextWord hl key h0 h1 h2 h3⟩

theorem lanes_sliceChain {N : Nat} (keys : List Word) (k : Nat → Nat → Nat → Nat → β) (n : Nat) {a0 a1 a2 a3 : Nat}
    {w : Nat → Vector Word 4} (h : Lanes N a0 a1 a2 a3 w) :
    ∃ b0 b1 b2 b3, sliceChain N keys k n a0 a1 a2 a3 = k b0 b1 b2 b3 ∧
      Lanes N b0 b1 b2 b3 fun l => (slideBlock keys)^[n] (w l) := by
  induction n generalizing a0 a1 a2 a3 w with
  | zero => exact ⟨a0, a1, a2, a3, rfl, h⟩
  | succ n ih =>
    obtain ⟨b0, b1, b2, b3, hrun, hlanes⟩ := lanes_sliceSlide (fun b0 b1 b2 b3 => sliceChain N keys k n b3 b2 b1 b0) keys h
    have hblock : sliceChain N keys k (n + 1) a0 a1 a2 a3 = sliceChain N keys k n b3 b2 b1 b0 := hrun
    rw [hblock]
    refine ih (w := fun l => slideBlock keys (w l)) fun l hl => ?_
    obtain ⟨h0, h1, h2, h3⟩ := hlanes l hl
    simpa [slideBlock] using ⟨h3, h2, h1, h0⟩

end

/-- The words of a block written as one number. -/
def blockOfNat (m : Nat) : Vector Word 4 :=
  #v[BitVec.ofNat 32 (m >>> 96), BitVec.ofNat 32 (m >>> 64), BitVec.ofNat 32 (m >>> 32), BitVec.ofNat 32 (m >>> 0)]

theorem lanes_packWord {N : Nat} {ms : List Nat} (hms : ms.length ≤ N) :
    Lanes N (packWord N 96 ms) (packWord N 64 ms) (packWord N 32 ms) (packWord N 0 ms) fun l => blockOfNat (ms.getD l 0) :=
  fun _ hl => ⟨lane_packWord hl 96 hms, lane_packWord hl 64 hms, lane_packWord hl 32 hms, lane_packWord hl 0 hms⟩

/-- In every lane but the last a 1 in every slot. -/
def allButLast (N : Nat) : Nat := packSlots N (fun _ => Nat.sub (Nat.pow 2 (Nat.sub N 1)) 1) 32

theorem lane_land_allButLast {N l a : Nat} {w : Word} (hl : l + 1 < N) : Lane N l (Nat.land a (allButLast N)) w ↔ Lane N l a w := by
  have hfill : ∀ _s : Nat, Nat.sub (Nat.pow 2 (Nat.sub N 1)) 1 < 2 ^ N := fun _ =>
    Nat.lt_of_le_of_lt (Nat.sub_le _ 1) (Nat.pow_lt_pow_right (by decide) (show N - 1 < N by omega))
  have hmask : ∀ s < 32, laneBit N l (allButLast N) s = true := by
    intro s hs
    rw [allButLast, laneBit_packSlots (by omega) hfill, decide_eq_true hs, Bool.true_and]
    exact (Nat.testBit_two_pow_sub_one ..).trans (decide_eq_true (by omega : l < N - 1))
  refine forall₄_congr fun q hq p hp => ?_
  rw [laneBit_land, hmask _ (by omega), Bool.and_true]

/-- A shift by one bit moves every lane down by one. -/
theorem Lane.shiftRight {N l a : Nat} {w : Word} (h : Lane N (l + 1) a w) : Lane N l (Nat.shiftRight a 1) w := by
  intro q hq p hp
  rw [← h q hq p hp]
  refine (Nat.testBit_shiftRight a).trans ?_
  rw [laneBit]
  congr 1
  omega

/-- Lane by lane, `a` is what `b` holds one lane further. -/
def isNext (N a b : Nat) : Bool := Nat.beq (Nat.land a (allButLast N)) (Nat.land (Nat.shiftRight b 1) (allButLast N))

theorem Lane.eq_of_isNext {N l a b : Nat} {v w : Word} (hl : l + 1 < N) (ha : Lane N l a v) (hb : Lane N (l + 1) b w)
    (h : isNext N a b = true) : v = w := by
  have hab := Nat.eq_of_beq_eq_true h
  refine ((lane_land_allButLast hl).2 ha).eq ?_
  rw [hab]
  exact (lane_land_allButLast hl).2 hb.shiftRight

/-- `n` blocks lead from each of the blocks `ms`, one in each lane, to the next. -/
def isChain (N n : Nat) (keys : List Word) (ms : List Nat) : Bool :=
  sliceChain N keys (fun a0 a1 a2 a3 =>
      isNext N a0 (packWord N 96 ms) && isNext N a1 (packWord N 64 ms) && isNext N a2 (packWord N 32 ms) &&
        isNext N a3 (packWord N 0 ms))
    n (packWord N 96 ms) (packWord N 64 ms) (packWord N 32 ms) (packWord N 0 ms)

theorem iterate_slideBlock_of_isChain {N n : Nat} {keys : List Word} {ms : List Nat} (hms : ms.length ≤ N)
    (h : isChain N n keys ms = true) {l : Nat} (hl : l + 1 < N) :
    (slideBlock keys)^[n] (blockOfNat (ms.getD l 0)) = blockOfNat (ms.getD (l + 1) 0) := by
  obtain ⟨b0, b1, b2, b3, hrun, hlanes⟩ := lanes_sliceChain keys _ n (lanes_packWord hms)
  rw [isChain, hrun] at h
  simp only [Bool.and_eq_true] at h
  obtain ⟨⟨⟨hnext0, hnext1⟩, hnext2⟩, hnext3⟩ := h
  obtain ⟨h0, h1, h2, h3⟩ := hlanes l (by omega)
  obtain ⟨h0', h1', h2', h3'⟩ := lanes_packWord hms (l + 1) hl
  ext i hi : 1
  match i, hi with
  | 0, _ => exact h0.eq_of_isNext hl h0' hnext0
  | 1, _ => exact h1.eq_of_isNext hl h1' hnext1
  | 2, _ => exact h2.eq_of_isNext hl h2' hnext2
  | 3, _ => exact h3.eq_of_isNext hl h3' hnext3

/-! ## The chain of the standard block

The milestones are the standard block after 0, 500, 1000, … transforms under the standard key, as numbers (40_constants.md R149
item 3). They are cut in two, since the elaborator's recursion depth bounds a list literal. -/

/-- The block after 500·i transforms, for i < 1000. -/
def lowMilestones : List Nat := [
  0x0123456789ABCDEFFEDCBA9876543210, 0x0A9EFD91AFB534991E5074AFAE2DBD61, 0xD735E91CC5689CF312BCC1EFB740E813,
  0xA8018364C29B18D283ACAECC892AB47F, 0x5F884940327D438B6F1B663C0CC6557C, 0x611438A1C6A58BD6146BE73272265051,
  0x5D89C3B348E6B4B2A29A500CE18BC473, 0x8AA339D4A59C7A9D78F28B529286E6D4, 0x91625D7B00C5877E1E8B42A24600B443,
  0xA59AE3AD3CFA77C4620890D82E9BEDB6, 0x7161073379288F21F04324949006A4EA, 0x3AEFBD7F3C54A5979A85FBA067226CD0,
  0x2ACDB90D28704D60FF77F312D615ACC9, 0xA0A506EB425207D3B7ACA2756CBFE96A, 0x70076297BDC9A51F134A220FECD763E9,
  0x02066D43D9380D9EC56CA73D45CDC2F5, 0xA9B19BCBFE746931EE27319A635C1654, 0x74EB81FB1DD311899781334E88AA8E17,
  0x6B4110FB6FC8C6242DFAADAA21CEF480, 0x7E0A642DD2100B95AAC4D325E932CB45, 0x2D8BFC27381C68ECB316320EE72BA074,
  0xA55FEB7BF8E1074365E46D1A9254AB16, 0x1A63B01F214FB5E4DF04DB92EB3E737F, 0x0E9EF3D7E4EB285E8E86E0F5FCA6C775,
  0xB35A27982535E51AC3593B3B025A7F52, 0x45E925E4A15A526EDA060D8B3ECDEBF6, 0x8492BF11D5A080F076C5CD57ABD742BE,
  0xEF331C7C00823AC9BA7D7CCEABD4091E, 0x9E011F36970A2F23846D7F4722888FF1, 0x2E7E3CD1F3DD2D9D857405CBC4E4C51B,
  0x9B384E5FB8178B3F3AE990105CA0BD71, 0xDCA2CF3FBB8CA582FF0F0069667188A5, 0xE90FF9FE505D349796DFFAFBA027F657,
  0xFC5492DA3E977E3223233FCFE4449E40, 0x2516966D1DB405874EDBB6FB9719B57F, 0xB4A66EB4976ACAF080DC47DC794343B8,
  0x313B60442F5277FD368F1CC63D909540, 0xA52CB6075CE15A5535853F1F92A3E3FD, 0xA7B338CC28E2F809F16B1C89759BFFBB,
  0x547BC41C982C6BC1A06795F5209C0969, 0xB44E35FC6F0115714A75F232D95FFCB1, 0xDD2B801D411061A08E771237CCDEB74F,
  0xDB47340F85CC51ACC687ECEEC6EA6ADA, 0x1648EE15FEB9BEE2A7FB8C93370794ED, 0xD850E67188495A608A0141352868ADE8,
  0xAC1991D8C72B2B2814FF06ECA7659E4B, 0x90753C5292E2E313E873F48157BFA1B8, 0x1CA99DA3F71DAA0C8A19AA7C03866931,
  0xFE6897632C32568BEB528341F32A425A, 0x0E002F96EC60CB64C2D599778AEE0929, 0xAE9AEF5C629E97F524D737ED546B8746,
  0x0632D22BF9F4761A3E46072EA2262687, 0x5964BEB4C5B762A0205D33ACED0B13C2, 0x18D75D84B9B41AC90B4BC9A7735A81E6,
  0xBFF627B6E58D67B21D55403D8975CA1E, 0x5EC7328A6189E15FC115796CC9D25B33, 0x1020A8B8537629F07E4F77EC88082C5B,
  0x9394F3A59DD1DEF7E4A0562D6573E2E5, 0x9F4D9A4AF231A7C28984766FBD348D63, 0x5242A2434ACA9C2FFEB5DAA02342E2C3,
  0x72DC229680A0903146926D30DCF33955, 0x7AF55442A6B91501B8BBF892CA146142, 0x67657FFF665EFE255C0E8DE3A5F2A551,
  0x23A32038EDC589FA04FFB8932093676F, 0xDC4119945168382C2FBEEC26ABC72D05, 0x7CB16892E73434762232F7B83D51089F,
  0x3F415D6BFA1BF758D2E882EC6F975A8E, 0x3DB25A976C26B017C83E998C44900B8D, 0x483958F4BE13E344F9015D7BDE5B977F,
  0xF96F57DD88C39583C3D7BDD3A79DFB3D, 0x3412BE14BE9A28F7EB4E1C944419DD58, 0x1EC26CDD5DFBAC957A7841B99422F94D,
  0xCB21B088EE4A1DF100333B5BDCF37E99, 0x8C3FA3A71A8292490BC1381AA010E575, 0x472BE4E731069F052CC8F0BC983601CC,
  0xBB6119E08FA36A115C6E74665A952978, 0x03C9EF6DFE568B63E958A793D843C3FC, 0x80BFA569ECB4F45CE5272E15509C819A,
  0x796A13D0126D60339255C63E1110B589, 0x6489A7D5A1E5533CAD2C2E1BF6D73D61, 0x1F226DD4523C85409AA9996A0438F1B3,
  0x03EB330D4039F16CFE6098CC389B9253, 0x4FAC080C81658B8F5C5E321EF66B77AC, 0x190B65B210EC8D457A39F3A333E339E5,
  0x17375DA0DACA413C2B80968A7549EABC, 0x1FAABBA12091B884A18810FD090E641D, 0xB04A4E200989D400C3C75B848CE33CEC,
  0x99CAA90A41077B96AD0999E788E2B4E0, 0x51642CACAFC22974816C45BCB1DC3934, 0x42AA1F406D74260988C0A479DAE639CE,
  0x98581C221C0FA3BBE861007319ACF4A0, 0x1F58E7C798FC08E0B85862A4487666B0, 0xADAAB75D2A6A276BA30A7C8AB4D47124,
  0xC83080BF201DCDD95163C0DE9B160FD2, 0xD3542F903B78849CF0976265A86A28A1, 0x18F41901DFB1EFE17FE6FFC2670C14A2,
  0x4264B90F4DD6FC3CEFFDAF7E74F035E3, 0x06820A54D116CF7457187D1E1DBBEFB6, 0xE1629E21020F61516E31FDB0295289A9,
  0x00A9072EF31FB616683B7B67885DE901, 0xD69AE7432B631C6DFFCF78054F91A7DE, 0x8CD865A683EB4B8B65FE75BF9E43EDF6,
  0xF6BBBCFF2CE54A06A18134D7A0C1D227, 0x6F53730E3776A52C627BD42F2164AD5F, 0xB4DCF6B3A258CC351B0D79CB37429C7D,
  0xB2229AF30F62696640D7CB25C278A265, 0x87C876C566466161963DBB53EEE5D915, 0xF8A9EDF570CCE65E844F1BE870A16982,
  0xE754DE7D8C8DAB46B032B1EE6E3CE158, 0x8CF3A24E15A650446B22849DC9F57AE3, 0x0EC04D3204F945A9B395AB8735F7A3D2,
  0x1B552FF11B543BE93609B0201A49EA2E, 0xDC77D84D310966AB4506D42AC23F500D, 0x59AA3471C817CA7DA16D0CBA583FAF65,
  0x3429642FCD298A9F8433CE39B5129840, 0x62A58BB5B793AC74B5B1DB1D6297A67D, 0x97287A7192879A3F4D151C01D805D80B,
  0x9B5ADD9F81BE4B0A6F42B8DC0C390208, 0xFFBA2C045F76C576A1AC43DF63D99CDB, 0x0DA9E091C194FED57F4FCB22F6A7F84C,
  0xD0ACEAC98735FC89D18DCF9485B8904F, 0x9E6D0A9C3BE226259D34D47C3E10A743, 0x6BAA0914EA196AB3E4150C8D95983CFA,
  0xB2071036AA60291B07ACADCF5E6A61AE, 0xFEAEDC931D78CC2A8C567235B03B12D8, 0x9CB0B0D3E7AEC23B13CC03FA5EC00786,
  0xDEAFDB79A2BEEC929A9F9AF4D2E03508, 0x0272BF86FB92E175835D8AC5065DD1D2, 0xD61D17E4C5DA39F5A7560C38FBA964D4,
  0xCB3B51401E818F2AA563DE0A10C28FF3, 0xA59EFF4A177C70DE997B319619D14A36, 0x7CDD3018F6A1C4FEE002C73116FB1EE2,
  0xF2CEFE2CC97D73129B42723C043AD5C7, 0x51DBE9B92E030B04F710C68A2FB7B375, 0xFC27CE0519CE0D5264E4259EA2C1DBAB,
  0xEBE6153609C2F937A0D49CD322CCA46D, 0x85D1380BDC505E1BB17D004C53746B5F, 0x76796F01E36C7B5E1B37D0D09C3ED893,
  0xA9FE7F77A566351D2A0FD91856062B05, 0xE92243DC1D571D11992977953412B7E1, 0x1288B0045EBA4F651DD34B2065C4C77F,
  0x2B99C0BEC01F4FA6CCA814251FBAEF80, 0x281F71C7466B4AEFAE9D7CABE6E915A6, 0xDAFA4DD300579228E70F5E063298CB84,
  0x7584DB2F54AAB99FE8BB7D30AE3266F9, 0xBC14DBE49B3708603100BE1D49394387, 0xA12CC5E147DD79EAAF3341B08A7E4209,
  0x9A6DEC269A8E3E0F328623533852542B, 0xB1289368FCE4A849AD01480D4432BA8C, 0xE6B82E20B77E64AA2C1D0DC4B0C237E7,
  0x50FE0DADE07DA3A46EB5A92396E044FE, 0x5FC0A0B3B31C2F8392C964290EA3A73D, 0xD3BB593631B711E28116FA905A6DD379,
  0xB99D1C40555C1E95C587336F9953E268, 0x4E5FFD349C69E9AABF1DCB611F6FADA2, 0x93CE1E53DCED173D2BA15F3A60F3319B,
  0xCC13C8FC874E814EE2BDE5C0B1E839AA, 0x5EFF8943B458457AB845ECAF83EC987C, 0xE120A5260CAC948254E855692986FC41,
  0xDF304CF7F0B9488D65E9DB02244E189F, 0xE0080E2A40AD9074527019430A25831D, 0x7CDC716479BB5499FBBC706DB7200CAE,
  0x377A01EA0318B18D36B8CAC868461C09, 0xC96809E2BF3121982D18A36233BCB304, 0x780DC5025E0E176C0648741C4504BA57,
  0x52D2473C8B782E6ED94C5C307A743D2D, 0x086F686AB135D963AEEC61B15FEB65A8, 0xB85AEBBE7DE87DA363F63A1CBD1AF5F8,
  0x197AB086DD71FABB8BE565A776C4D012, 0x29AB38970964A816C5FEE3C2FD852DC1, 0x7DE17085675A10D3C44E0A1E353E2CBA,
  0xDA577CB8BEB69E0B187AF5C2911F78AE, 0x85E7527B14BCC2E8D0742395D447ADF5, 0xC6551D1DA54B8F42A2E2C80A4F706318,
  0xA92F0281A062D766F64B99D670381D09, 0x93E425B1982FCBD054093D751DF37102, 0xBE14C0F330B8ECBE19EA93821B59526E,
  0x840B4E09EDAD105C449921B73EF8EB0E, 0x5EAF28A76D734EFB69BAC5D7D305C3DD, 0x0379F007ED662D376F5CD279EF670EF5,
  0x77ABD63B985357FE430025CDB07F8461, 0x62682918FF985E12BF8D7C6375FECDA7, 0xBC9AC724FE813CA3D3B83E66DB721238,
  0x085AACE77D3E83444E374D32197A8969, 0x55B126E7C1407D46B771A29ACA66FF8A, 0xCA131D08F1C76E12C67A1051A11979D4,
  0xB52ABE1E8A46380C789A3D94FB15D012, 0xF2B6E8F962778FC90C0F9F9A7A3F12B0, 0x0D216A1139672CC757C9AF3618E10801,
  0x4AF4360301457052BD8B8130FD5ECAB6, 0xE2E3611E444C6B8D1781611F5FDEF47F, 0x4175D171D31D6A0FB0E9A30740F79836,
  0xE7BEBA65B3D8B5B435EAE81E7FA3C8D9, 0x9F696191BAAB6C53619B232643027E6E, 0x6BE4AB25B35015B4E1C05E127CBEC082,
  0x3D02C67DE49130216D271FA39A0D28E7, 0x2D713EC0D1FFFC467CA3197B2538B026, 0x68EC3AFAC48897CC0B42606564A63E82,
  0x52259663D4335ABC6645616D26855A63, 0xD5572003275833AE5220C4D8E882908E, 0x44F68E0E1ED8218DF7D955073DBA097E,
  0x3044CF719023A8E13D9464EA03E74613, 0x86A8C915E663DD3381246F2750D94DB7, 0x4D3F8E160C21B231A615F553F7CCC306,
  0xCAB1138C2C75B4AD3AC7146C2CA4FC78, 0xCCAA41A929E5D3A08E156940AE73EDFC, 0x65E6E49978099FC3A53EBD462533387E,
  0x5DD716547153ED861CA70B0BD7EC7428, 0x6B452425A2306F92AF870D017F8CF315, 0x04C444DFD6325BC0F2001CF6BAACA533,
  0x4C6E10CF3AEEA2B9A276213D415DD41C, 0x1B5A0191B926B87D6E61E4CDE68B1F50, 0xBCCA1BB754BED697A223139D64CFB683,
  0xAB0AB734D6011162D3306CB4840BE3DD, 0x0F4B5D86DCC56A454EBE3B0EE353E80A, 0x65BA9413EE1687CCA6BBBE62A25F0D99,
  0x1F1F026443E700FA22A564F5F3B74387, 0x80BDFE5643AD10DD30489BD392DD0907, 0xB7B001D1EDF327C876EDF3AF41CDA9CF,
  0x1AE6ADA5F48C2F771060E119D990F76E, 0x94290CEE9DC12A09EA1745163DBA1984, 0x8C5AE6DB5240AD8BDB131B4544519C3A,
  0x47B0D558603A932BE841E038CB56EC13, 0x4FF6B2B3E80412C0EA2B0A25D03BA883, 0xD1C78E695A8AEFF871F25349737966A5,
  0x071FA31F92B97174AD2B44505A6B45DC, 0x72392255576246B8F33480F276509157, 0xC00C6CEE83D9A913EBE0A795F1E164C3,
  0xF8E7014491648A485B26446D58AB0902, 0xF88861A3202B57E1B46FE55532EA56F4, 0x855A8D935B0569D0AC7877F763BDC92F,
  0x7839AF401F48C7E5A0EB31FAEABFEFF1, 0xE430901CC5148E43CC644D520214D69B, 0x0CE110084F82DCE14C1A09CEE6884D43,
  0x2E46B844F881F2C10DB4A65B9BBDB83E, 0x358F9FC82BFE41560E37A04F17DD06AB, 0xB42FA7AAEE930D3B1FE6A953F1EEA430,
  0x802415DF32296D23F14E0B56E8A82A85, 0x08FC48786FE56FB77087B71A1405CE5C, 0x3C30EF88482D721124EC41C945E618C0,
  0x66D16BE1F7ACCF56C11F351BA9A34D62, 0xEBF7CD6743A9B6E67FC21080F7285A26, 0xD7C556C858189F0092C66994B257BC11,
  0xA8CA804E13B4F784F6F9D4BDA4CED34A, 0x6D1D7CDF3070E12AE9E014B8BF01EB4C, 0xB0808EEF8208A2BC5E21DA33C4F9CBFC,
  0xB00672C2896E555285DC7B2EF6EF2465, 0xF7A1640656653706199076E1266E78C7, 0x86D4EC3DB3D07D9C286C3DC819D434DC,
  0x4B576CCFE7C00CDC96443986CEE74A32, 0x3CA038CFF541D3CE330FD53FD4407964, 0x138002DA800529E76AEE9099D54199E0,
  0xE1DD15D3BE6BFDF53D69D0478BF2EC13, 0x8B6F842BD63E434BA6333FBDFF4F16E2, 0xB249B7AC2E13F00EC7CDC1002F6CF806,
  0x8F779B6897F1CC1F43A2E79A6B0C55AF, 0x56B16854F53DBE8237BAC975452549F3, 0x992C3EAFB85C088C7BDDE4EFF1D538BF,
  0xA26DC368735BCB26B4FC576E2F7B8B37, 0x50D7098FE6AD6D8AFE869C604418CC33, 0x317A99F746A5B78DA91744B45B95F332,
  0x19D7234B4EE65AFAA28E1E6627F308DD, 0xA56A4FD6DC6AD75E35FD92935FE46D97, 0x30475193D4D37BEF66A052D949C093B5,
  0x0715D4784E41E8F981BC4E9BC0756FC8, 0x8CC4E59592F20A705C5814AEE0562EF8, 0xAC1C69675EECF5EEEFC933D91938CB47,
  0xDB99F4D43B35AE7ED85AEBDA45C6055F, 0x226052C24B605ECD7D7191FA2B75C33A, 0x35253892EE33808061CD19AC349EEEB7,
  0xA37183EE6568D9E8710A0ADD5E30E6CC, 0x004679D3BEB06E7E3000AAADBE62CC68, 0x9D36F1B566B0D14503B5019ACF6DAD14,
  0xD6B801069152170A00094F18873C1377, 0xA4FE1E6C9501E4D3204FD64184C5B76E, 0xD6B925D2E943744AD9A0EE6456B33AFB,
  0x00002E3EEB994F54F0835E4B928853FE, 0x16BD411E61B5A21CCA6C06315DB6D597, 0xF6B54E4B3F4633313891C27586D93806,
  0x1FBF1B42CD40334307D12C7D076C0704, 0xDE2DF5B4FB47BE23F5E36073A867BF90, 0xF021FC08722C9D22993A1428A6CEE14D,
  0x8F7685B07BC5E5DF97E3E90BFD9F3AC7, 0x436922A7F7A8AB393AEE38693F34591B, 0xDA21091B75611A47F508399F264E2313,
  0x18446A662ACD40A756CA5C061B0F65F1, 0xB95D8C547A576D7042614EA2368554FD, 0x8DD620F981EF01A8FDD44225ED563935,
  0x54F66C9C97B23D62FC3899BDF06861B0, 0xF587F175E6644321F7F6D31B7C889E32, 0x28B1F9AAFF9AE01C6E64617F8CC88E21,
  0xE70300878CBB34D51341101147AE9303, 0xE2666AFADF99E42F45310246423BBD99, 0x2B0CDF6041303871837C87D942017C32,
  0x46E135B58E97B3FCA037A198FDD88926, 0xFB7DD59409B2CEAD72AFD53D075D8748, 0xB5637E2843D33B17E627C95030687BB2,
  0xC41D0A902902F14D8FF7B4A8BA396463, 0x35C45BF7AADE9308F11269AD11D5D681, 0x346D968C5BE31A4AD0604B8DF2DC3BC2,
  0x90D321D001CAECB1B42425CBA0FD1257, 0x8D70A7945993D46E30499D4803852B01, 0x5EEBEC61AECE27C2CC738FB2786FE21A,
  0x6F1A4812912B8DE8CE86E9A107A890AD, 0xF9FEE4BEA9E482B03C9D60E03B6D6A00, 0x1AD10A4AC3FDB10EA2CA7D5A26EBBF45,
  0xF65A1720537AB97E008E3502A7F16E29, 0x31F604FB548A5027F35013A8EE4F5689, 0xF026DC9F46B6E3F85450649F7BC71033,
  0x11919D6A34985F45A70A54634FDC93D6, 0x94EF95CB4F3C0B2C65CFF91E8CCCDCC0, 0x25BE147C64843F9C247AF775809B7899,
  0x37832F3E580C566131EADAEFEA03A60B, 0x380AD84FE76BEBBA9F6A06E20D8E92B4, 0xD23DF7AD3BE03AA2053FD4C2FC9197C1,
  0xC138F44D0C1FAF9A7730537E80EA2111, 0x115BEDA65DED9BB03064A1CC6C72C91A, 0xEA8478A2595D34330B4244BDB17ACD00,
  0x05699690AFAB020DA4D19CEEFAA30EFA, 0x65F3A87B8027C37A71F25E60D65D0149, 0x71AB03D59C38EB34A66E5260920EB7BB,
  0x2B282974ED6A205CF6DEA93141AF0493, 0x9C06D453D1C41A4E27915A60A0574750, 0x414953A68508596D7BA44B5B1458E1EC,
  0x74B29DC5606A49042EAA7355C960A8FA, 0xFFE80E00ADFD745E5B9C85B9BDDEBAE1, 0xC631C2AE8E6017B4FE9E7252CC9D73CD,
  0x82CADAA2FAC2D17E18AF631AEFC5DEBB, 0x599F24373C684550A790F8FD6E8DABAF, 0xD7372F9D834170B0674674244A94A53F,
  0x501AE2EC444291DFA05BEEB384E71848, 0xFB7D987A065E2960F1E47006CD897303, 0xDAF696B84D5221CF5A2A84FE7FBA73F2,
  0x7905F810F03E0D7AE0EAC9D46A851A1E, 0xF4259B85C6AF1F67F03F419AA6DC780E, 0xF79FA617DE803EF6BB0746AFDA8BCA09,
  0x395C52B687631C1FB7F3B1DA0D4AA006, 0x00C1138269E666301AF37B643227EFD9, 0xB6A184BA865507DCB4F3B83135311DEC,
  0xEC72B2EB8E20AD30137A87AF38720C5F, 0x8C355AB14406C9EBB262D3FEE9FBE01F, 0x9B8467BAF054C27DE3D95E346626F373,
  0x5B8CFB124AEA26F9A2FA956B9A08F73F, 0x47A25920011ECA564E878F3E2B653279, 0x400207D0EE3354250730E4776EFBE269,
  0x061621DD7422DC9237F6AF1926F45B0F, 0x70B2304DFCB1BC90E44EF1BBFB808F1E, 0xB9E31173C9BA33B882E8AE6EDBFE7AAA,
  0x0EFD4EE185DD3AEC4A29E10CB0CFF663, 0x38AA5C29FF88064A140FAF29ACBEC447, 0x4581D5EE522A6B2F4D930967AD8116AC,
  0x04ECC050FA5597B7AD60FC9ED3A36593, 0x2ACB51D6D602DDF7BC98AE09F41C05CC, 0xAECCE9D2467CCE1DE6148289B6BEEEE8,
  0xA608C04E90094A348253613C66511BC7, 0x0D0B42356491C861F02789899A97167D, 0x7C29C20E5E4A27622E1DE30848877382,
  0x8659416BA61C1CC1368544E9D684B4C0, 0x3970B9F5DB0119D08281E5ADEA043327, 0x7D9FA97A6C5EB8B0250CA723D5A1EB2B,
  0xBF3851B7B2DB7DEE4BDFB38AEF7226C2, 0x5E3DD03E82A613BBE7862CDE5E9D51D1, 0x45BF19774D53C45F724E49EFA979FA3B,
  0x83FCB505C3D170C149C26CC6D88F56A1, 0x476F365E0ACD0BA51A7200891DBA92BD, 0x16C6B5AA14A850091585B37AD904B789,
  0xC5036316C7C4C2A79D9A30ACC405D1B7, 0x211D8B245805467F694719193F2395CB, 0x1C19707F053E92F6BBC455343F76F722,
  0x51FE8D0616D026863BEB930563D5023D, 0x664AE4C225A5D430B81E36ED067D4BFF, 0x8CC18FBDD99EE5CB6B88E932BC425EE9,
  0xA3716598F82FBD94B9727F7E9BAC634A, 0x5B0D59A6278ED111A659F400570E474E, 0x4E850BCCFD38A0F3A30FC4933ED2B481,
  0x33CA1B6D389FCE9B55E356DED26194C1, 0xF5C63BF5E1F52CDC8ACA9207B93680F6, 0x832EEB4FE07DADA129341CA54AD3C4A3,
  0x77FDF169FBD631CBB8AE0727F33B6212, 0x21C0D31F9BBF3BF7C29D7560837F8E2B, 0xBABF794C452CF00C03E5EA00BDB25F62,
  0x90E7F3679091FEF560A810B917301A3B, 0xFCC56654D391D8AC0EE4C5EF7E4DEA8F, 0xA3D0A6A9EF7A14A89F6A210FF3D03691,
  0x9E4EF2BE94F68A1810DAE49B8D704E96, 0xFC4AF963FB0487F1FC2B272B5D182CA3, 0x566A804165F3E0682D73C4FEC44B5B12,
  0x78BB8846F812FF9D130920ADB9A043CF, 0x3AF082F72D9DAEA32242A565E656DFA1, 0x37E839043F3F93DA3954F297962167C0,
  0x62054DE38148551B24B4FC60F8486902, 0x01D30D7C67A6A2EE4172685F3AE3FACC, 0x46F8269C47A08315C80F3267FDEA554D,
  0x6F68E2E10B7B5F3252C46AD62C95C516, 0x2DE77A75C91B6B24A052D6EDA0AFAB17, 0xEDF72A84A6A291FD969A6CA547094B57,
  0xCDC937B229D68F9286B5E84F7459AC1E, 0x202B26795B31C72AF9602D0A3EA34174, 0xC29DCA39224CEBA8519BBF4B41498AB3,
  0x1C7A6648B3EE0BD5B637A046DB409DB4, 0x2E6443361901CBDDD60F505B21E0D219, 0x285FDAD3E8769EE0BEDBF6BD9BC669ED,
  0x04CA1D093442884751CDFEC4524FD928, 0x553252958B610E0377A6E8CF6FED4CC5, 0x3BCC91A987EE2C3475B049F7E1B9BF60,
  0xE6C4B8418932E40BED1E9C50C51BB44D, 0xF5392B94D746D92FE56532E631C83365, 0x0A54C467ECF81F809140A4AD6B1CFABD,
  0xA2E3359C5B2AF0279A3A19EB33272865, 0x9DBE9805D2CF2921A9F63C9C606DA720, 0x091093D63DA9B3FE54C5F32FCD4637AF,
  0x05C5A07588382E87F50C5931E22B401A, 0x6154D13CC004058594DA74D362D916CD, 0x548BB2E2827D1EE2F3C0EC1B1025F539,
  0xF5A79FF0368FE17BA8B1C2F45C4B56D0, 0xA9F0C9CC15A804BC8BACE042697C2970, 0x7F6582C9004441C8567603461423768F,
  0xD3AFD8AF67BF8C351A8821E5716C231E, 0x5F5F51740383E3B58F669E85A10959CA, 0xE16863BFA3DD78FB5D7885BF5A56A277,
  0x8620C51ABB23E0613A1C5F2D134B0806, 0x1EF12FFDBEBDD6B83906EDE518A0F00E, 0x2019C3EC111E46F89C7D8A842679D08E,
  0x599FD4DB84234AAD6BDD7BEB0E635D92, 0x0D12D4CC827525CB19FD77FDDA4BD11F, 0xF2ABB738A3FFF5BCEB92A468AD808A08,
  0x686E30F92EBA9512464EBC476105CEF9, 0xF8EBEC711C460859C7118C7A3DC9DD88, 0xADAD7288CA34071F48711AA0F9DA445A,
  0x48D5A1B0E7E4CCA5FF625A30DF8DF382, 0xD5D2F3A989CC5E811322E3F79C674BD6, 0xBD9E51ADFDFDCC9C0F934552E9C76C10,
  0x2B82EF1D05E18267F973C9C31E717E21, 0x3351C9A26B978647FCCE326F4FD28205, 0xE97E241C8B2613F433D24A1B567D9865,
  0x879AA61373DA07F194D01804A7D2D8EE, 0xA4D88A5FF9BED9014430CD164C789C39, 0xFC0D05383F541EE6AB7A8A0B61CB6506,
  0x6622067A57586AA82477D4E515048309, 0xCB442BD72D32F4FF41CDC498C8C0AF08, 0xEFA491D82B57DA638DC7451F0B29D5BC,
  0x8267675D2BF921CE5C031E8C44DC0D38, 0xD85E191B3A30AC7AE4A8940DCCB3DBBD, 0x1F162F52A96B6A68EC662B08EB307EF7,
  0x45E60E22E2B47D06CC9C77301F634B43, 0x9A52A04BAF529EFC57D9DB0A9D1534A3, 0x1F335C4C13710EE1F39EF739496C6A14,
  0x00CAE7DA8269100B67449E5EB91C0B23, 0xB9ECB03E7BA1015FA0EF66578CA398F3, 0x743590D70326F4B7F815A19A6316D2BB,
  0x28CEBDB0A9AB058570A5CA9389588125, 0xC0402CC30D5598D6EF7B0321D36979B3, 0x7F75A92E8293F50100EC9D9925965320,
  0xA1957B6559637419800C714073275D1F, 0x9E70DC60242257300E9A788D81113F5C, 0x51A9D539BB5AF2AD46FE170D0D9094AF,
  0x5504D579F8636670062BEF11A79000C6, 0xAF2B80F6C36F6BE08E68530B45BEA4C5, 0x8675E1DD9ED9AD417B76416056618A95,
  0x38BB7BD8BAFFF7A7888D78DE4CF2EFED, 0xAC67305062D1C0718DDBE4608475673A, 0x41ABC0C02189D11CB4601A0D474E3F08,
  0xC4E23C30C831F9B91FEFDD416615D19F, 0x3434757A62432D32209B3E0283590CB8, 0xC0E32502C676A71B87223F7483190587,
  0x9F380AEE2D7CB1A50E9DF68D50D05C75, 0x065A27F78832DB13A322623804F9BA4A, 0x6E40E801332B24B5227DC7240D47A751,
  0xF932122C857F1271E6A38363AAE19F36, 0xEE597702EE536B53369014BF6A1AC6DD, 0x74CCF2E67290B122E0001E97CAFE7E46,
  0xCA0CBC0AFEC84F60B705267A485E0B7C, 0x23509AC189D3950EBD3453DBC573F459, 0xC467C5FD98D12216543AFE739BA681EE,
  0xF7A5708E1E61AC9F586772CC2625C819, 0x93F8D4B85AB7CA736CC41A85F93081C0, 0x7AF5678EB2B6A498A2860D85FCC744CF,
  0x19A5B89A6E61E7D07120A50A518023C4, 0xF04EBCC10625EA6CF4752D5BD1AFAB87, 0xC0C710BF909A00F167DD602F922A45F9,
  0x6C808B4AAA18F59371060E84BD5A2956, 0x6A2A790867A24875A5234A192C75B9DA, 0xA3A4D204604C25AFD2F94DD0A8C92ECB,
  0x030F9C00AE4BA966E15B29E9C8358B90, 0xFC2C3E636AE202416C8922B7A287A097, 0xCA1C8CE18CA6DAB2BE9D58D427B6918E,
  0x20EB36ACC6716EBE757BBFDBDD088CB9, 0x2C7F490CEDCEEED929E6C56696692CBF, 0xCB06C2A60818FA3FD2CC37BDDBC13E52,
  0xBF52462700662CF7B97E0970D544786F, 0x314D88A8D4DF4E38D3ECF5DDFFE688AE, 0x552E47790317C687FF014B55BF816A02,
  0xBC37A1C7EC6A7CEB029D42BE9A24BCAC, 0xAF88C9526DABB28C6EF509A336C1CB38, 0x5B7353A84E9AE179B5F438503A42FA3E,
  0xEDEFD92680C44F4B8792224188B78B18, 0x5A2C0FF2EA5A0847A042470712EE612D, 0xBACD83CC9B544CE040429AFD82646159,
  0x281E99E5C5774FE3FDA621C899E5E28B, 0xCB83FC6CEFCD4396DC54EF96C2E83ADA, 0xCF959CEB6615C7A3BBED5E931E4741C7,
  0x6F6E7B5094388222397C94DF34099E04, 0x982A04ED287F6BBDFE4A3672C4B395D4, 0x03A841ED4D1EFEFC00A555CE91857266,
  0x03544821DF5AE8FDB0377B8824286FE4, 0xC01B1290241023223A720117ACC8D903, 0x9B82063DB17E1C19EB4C1EC5C66BCDE6,
  0x3F62E64040D6DD93880C6CAF787AA035, 0x96DEC08EF8502CD2434B6E56186DE477, 0xC860E759535B25DF1A03A17570332BCB,
  0x6E3473AF02BE52AF339BD8FBDA324217, 0x1E95251ED1AD6C70617DE24234FCB22E, 0x7D4EFF8E2CF93E7810FB3E7A5B53FCC6,
  0xD5B47C2933293CD228D6D32FF07BBADE, 0x12BE1007DDAD55BBEBABE4804515DC8C, 0x864A928E7F50D1134E888236008BCD5B,
  0x11941B5B1765A39A2245E02CFC34B99B, 0x9197EE30AAAEE3A2C75B0BB9BD542BD3, 0x7C9CC3892E4141ADC0EBC915568590E8,
  0xF01511A282BA757BA8948510982E2C6D, 0x8B41C7F24E79E0CCFE8A5D7B3646AA2F, 0x851C7D1F1C78F93F351A3EB0611882E9,
  0x1817FE1C4265F5F61E164ABCD7A5876A, 0x40D5F76C21FCA0EF427684658E441D34, 0xF4CB7C6709C7F452EC48A0823FDD44AC,
  0x011242BC5621A6E478D02DADE120ACD5, 0xE431F63D28A2A6C4BB491463C0571708, 0xFB7AD4893F3ED09ED25860F033954AE1,
  0x5156ABB4D93EB21C72B94BF38EA77BCA, 0x0F25C87FC9563DF1A1BD08F6266DBCFB, 0x5B35C4534BBF9F1A446EAEF4DEEBDD1C,
  0xFB9244A398A00ED42293FFDF948363FB, 0x6B7184597D8895D9CE3FFF169C548685, 0x98F21729DD1A110B0F6F56DC7D1A041F,
  0x2F8F945068984B932D211C8298326954, 0xC95B54CF61D52DF4403B6D0184AE3092, 0x440CA70C03281FBD8F204A051ECB1727,
  0x9FE0F9AB7E8288C5AE3C07921F199C64, 0x49E483CC634E26CEC2DED19F8AECF8D3, 0x6365100D063405E1E607DB67CBDA0C59,
  0xA0F6FAAE8C9830B4BC3EF83CDFFDC2DC, 0x773C92309DF63ABBB94A70C70E043DE6, 0xBB9E07C52005BDB5FBE42FBA11259DA7,
  0x44473EACC8552DA03DDFFBB888A73D4D, 0xBCC45E93913EFCD1990E385D9683516C, 0x1D10E00C012F5EBDA31099451363268A,
  0xA182DC8C163C6F3B298FB924B0DC43ED, 0x1976F1D25F42A9228F84A6E516A3D753, 0xE2E68CD77DE2229D748F63CE70ACBF39,
  0xBF16794F71DA896B5C478D7EFE33515E, 0x861784A68D5BBD2E6694A8AFA3BAD1E1, 0x796F33A3E6A739D5DD0B1F2D41E23512,
  0x1678BECAEF869888D932230A3B0C0120, 0xE8E7EC38628A0B03274FB6C536CFA02C, 0x34845ACDB92C6BEBE21B8B656C928B88,
  0xC4047DCBA875CC58E8B4D20878C5085E, 0x0565829D34F7832116CD79CCC150DA94, 0x442F87B88CD3CDEC36E73B5683B94852,
  0x4B9E2E44946925054AC8152DAE420C7C, 0x59FB15ACD10791A25CAF1E560C9B9FAC, 0xECB61F0B3CC4412410FBE8CCF5644591,
  0x2ED7D9F764979722F87F7E632A42B276, 0x7203C0CBECA299051A3A4F3E21681941, 0xDDDEE28B2B91C1B65086F2E365870A91,
  0x1FC80CF9D384DD35EBBF286D98328D36, 0xDBB35BD1BC2EE7A9E9F1D502E1F7EED8, 0x78D576BCACE387E10E7CD92B19A22AE9,
  0x96043F3FDE1757BA82179333E38859D9, 0x70A4EFA8433092316597834481A5EE73, 0xDF2001B720DA209FF616188C57CAAC3D,
  0x105E0E34DB778D52283ED05B8CCCA818, 0xBBAD398DFF4F14FB68885B5AC0851DD9, 0x2053AC74D336ECFEC23EF5992A5E4E08,
  0xEFA9C2810F897A5262E8306AAFC874E3, 0x98BD6D92BF69458AF5855D972E9661E5, 0x3F4F547198DD20DC6E2EC50229F7051B,
  0xF53F3B278395E5F93D9C06E0EEFC3457, 0x873212CAFB99947AB1E355377EE300DE, 0xB689CDF2D2D4F19ABA0ACD70925B2ACC,
  0xB2D952574BD4855A33DF6D1CC8A4D6D9, 0xAE2538D69A43A337AC41B85AA8A4633F, 0x2126C98EEBBEC6AAA0391E6622B6E394,
  0x55FEB6F4E553BCCADC207A9B7BD82152, 0x1D9A609EAC2D0B263D6314FBC76A9C53, 0x9D307E1D98E79D45CFE6132C402BBFE1,
  0xB053FD986FCE1F05A321B71E18BA1593, 0x8A2CE26B58CA12FA0F578E0AD1438F64, 0x0B9771394EFB441E317B4A4AC8F35EF9,
  0xDE699A4673F209171384B1B35BEE3C3C, 0x466BB3BA7223C50701D41280AE6920F3, 0xB133438034323EFD08D3B4C8DD1EDF1A,
  0x1B988D1E139715F253DB4119F3451828, 0x74B981432D70F4ADDE8D52C1FD92170D, 0x4ED7515525D7C46CA7971994D716A0AD,
  0xE2A6B4F44AD2C651984BCB9640B6E1EA, 0xC5FC495B3E0F955A05F048B2E0D9B38C, 0xE3EA36D48C8397FFA8CF5C4C04F8AAFE,
  0x3853E6B6F088E6ACC0ED73E1F91339B3, 0x4677C84A1AF90B108D38A4B9880B03D6, 0xE4D6789DF278D2827E18D27806DC09BA,
  0x6F3C073B67024EADAB14701E69F5D95A, 0x50B11F360998B77D05D0EDBAF5EDB18B, 0x07A4F4919C741A72131C5C37674AEE8B,
  0x60ED2D15EB1BF12265EF70A944A7AD3E, 0xDDA421E87B376018B3B2675FB3B102B1, 0xAEBAD8D2818193D39257F723F9D5ADAF,
  0x531746E5678635C65809DE0358803FE9, 0x9AD6E7C275AFC2AD640A4D8C5306DFA3, 0xCD318B02C345971A5D5297C3523E6BA2,
  0x69B4E8950CF416593C540F016A79C020, 0x8F9EF2FA38F794A1017B87E1C7A7703D, 0xFFD9D61BCF01C9AD3A0A40300C192FAA,
  0xC8385FEEFADC82D45B8C0FE061C26650, 0xDAD12F70289806848CED3E6D96B2B0F9, 0x27E2D9758459082CBF2EEAA329753302,
  0x3E6833B845DC058D634DABD58D91C3EC, 0x1C7DC47F8122702A7EDE9134204B5F06, 0x6CAAACB8AAAE7A870CCE6B21D487CEB5,
  0xE0326CDC232968BA17CE74B6EC3361CF, 0x99A92655F2F6EE61189C590FEC15CB3D, 0x4D94915663DB7D589BCC3DF047F1DB17,
  0x8C3AEBBA06D7D2F6070A5314982EA9A2, 0x8AC2C890FF9A7C81854715986467D62D, 0x18107ABE3971EA8E7E32457CA71CA23E,
  0x1BF54BB63994D9DD372A33ABE6A9C6CB, 0x84CF950E598515D74EDF5855717555E4, 0x90273D81471F9B9DB5D6973E721DEA9F,
  0xD0EE3687D8B46463155C32EDF7AE7F9A, 0x3939150850A8386AA6F3C135EE5D533B, 0x30BE515AAC0252836063A5ACE558BB02,
  0x97233596C2657FBC25971A190AA23660, 0x738F019341871D399AA2FBD3BEE89E9E, 0x310E4C6685B0242D8819C4FFF945653A,
  0x683FBBBF0650D78A35FE396A21D6C8B6, 0xD8B36AC9CDDA84F7B01F9240C15713FD, 0xEEC56429C0F34A2BD6060CBF921AD078,
  0x3CC962CA041EBD0E750A8E25428DAE26, 0xF9AC065BD094EC9DC545C5D16838E437, 0xEA34AE00DEB00DAA456C6536E60B6E54,
  0x21B85915A53807F2C4282725C8E246AC, 0x302EB4559BE908420D3110DB39579241, 0x81F4910C0181E5CFE7BDD81584481D6A,
  0xFCA8EE525FF4B451E41D35BC322D424D, 0xA6DAF344C132AF21CAFBB3E7539A817C, 0x5FD86F01D8EA249C50636EB20911938D,
  0xE7A18F2BA53DFA03591F71C4D20BCFFA, 0x446067EAFF7F0F4966A08D42D700D8FD, 0xF01F5E3CAFBDA27BD2E8B4B2278ABF18,
  0x78B1E1F2D5B7F16104119C69069FE249, 0x801A44B26B22AC86E0D8F85A6DC1E36E, 0xF2A52F05D45CFC478860E8BD9915B807,
  0x482D108FD9C4E44117033070E57D401D, 0x0BE76FE7D52E76259AB10630861FAC7D, 0x7A405375BC1D849C747BD030DF64AE63,
  0xB7C259E43923FBE0431AF153D68E3860, 0x6E28B60E2B6AF4437A396002BDA98E30, 0x08E7F9AF6C1825F95EB330B3D18D641C,
  0x38B556D31F30BC67D116B9996F18E0B0, 0xA74E958D7567931D4C91B2EE7D5CC870, 0x01802942F30B26A3330AC2AE510E3962,
  0xD9CC5B80E6700EDEB298E8C7BB55C190, 0xAD5F470CCFABE7DFA806830AE84BEB1F, 0x1FAF1E9EA3EF9818B54A52CE7AEBB9C4,
  0x4B82C735D242D2D9EA698863C1C2D0ED, 0x297110E39686A90A3318CC4D912BCBD1, 0xB1EF4816E481913ED6DDF89F72A7623E,
  0x3DB50DB6C3291A08E8E5A6E3E57A9301, 0xC002CCB710D1AB514A7BDC17CF365AAC, 0x82165D810F0A8C2D62410705FB188A25,
  0xBF9D9AE1A7CDB3ACD7B5C9282F8514D2, 0xC45ACEC240569D8EB90630E3424E2D92, 0x153354ACCD76649307E7A3649E03F6BF,
  0xDC6A1E1EBADF9CEC75F3CAE6BB111216, 0x0DA4852D65A39E6E2CB05DE8FEC223B2, 0x9209C9290652440AB07A6B6C7653E7C2,
  0xAF5DF8D88DF870A5D07A7AA8F3F6C881, 0xC0DDA004F99F48DEFF29C21683772443, 0x818A38A2C7E363EAC363BBF53C2B39F5,
  0x069F7BB3152A25586718C437612283C2, 0xEA95E81FE0514DB98B7C66A3833E5D1A, 0x4A42D53AFF8A4CA00FE62054405BB27E,
  0xBABC3E05535CA041E918AEAAF1E3F56A, 0x574C3948E3B9E1A5C537E7ADA58FD6E3, 0x39E9ECFE3D047D26A1B96D7BB88A8F76,
  0x7136F53B2820D6C64C6523535221AAEC, 0x4D8220D628FC1374336B6AD9F4101246, 0x67D5CBF81614B899CA7AD2DCEFAD1A21,
  0xCF4355888EC42F5E21F64EFB0482F61F, 0xEE7C1EB1A4407E58F684201CB3937CA0, 0x5AE9FA3138F97F653080BFAFDE657B79,
  0x47C86A01E2F01D74BB3E3E600B6C7191, 0xC49E65FA1F7F8E56CB3BF5ECD3DDFE6F, 0xD30C3B103CBE7C01E3234788930A02CB,
  0xD78572FEF9A7BABC922A1936C0566DE4, 0x97845F6E6616A98BC1F946E03B017C3C, 0x2AF47A44F7634575D1532FBBECF70F3F,
  0xADC97565F84B9CC3BAB101AAF2E7BF7B, 0x2FB97EAED8698A5D9B58A60FEB9292F9, 0x7E3CD3CF89BE30ED325440E0DFB99E18,
  0xF1E5A6AE0A2705E36B62BC248FE5EA3D, 0x7E9B5731E8E4F8195EE1E6C42ABF8820, 0xFE65BC60FF49A182F6D40B17DCA59CD3,
  0xC9C804594C57DFDE32420BBA3CB67DE1, 0x695E840FCEA7327FD95A45A71A676B7D, 0x3D2694F8EDDFC3F90F937E3070936098,
  0x472AB18AF0A5B5A61E3AD6656A1BE041, 0x6A60BCEFC91B5EF09A06B111D2AC659F, 0xBEE29EEA5B048D4424A98B25CB7D0AB8,
  0xAF946EB799497E50D7621A9C1742D0A5, 0x8E06919DA8EFB6E0E9014A6C91975B58, 0x88A9774C1B621D5CB2C3CB49F4967877,
  0x78396199ED6ADD04BA7693CA6B94BADD, 0x94BFE356F2D8128C1A072D2851BCAEC8, 0xC4BE56582486263152BD67B9D9FFC1EE,
  0xAAD73196833F48039EA95A03BEC0706F, 0x0EAAD3CA61790EED339AC8F938A28F3F, 0xC3C852EBA389B9F8F250F92E2D33A86F,
  0x264396D2AF487836AF14F29C2E686B52, 0x9C8A334EFA1B5B7409A55B4885527973, 0x32ED5153D7509E94171DB651B124A3F7,
  0x6D2B7D9D1CB14C24CF7DEBC57F944BA5, 0xFB47D9A904948B8C27591DCE7AB443C6, 0x7DB69323AA25D2D717BAA8E592077408,
  0x87F954FD5D44FBD80F7EFA732F759175, 0xC53B2A8210958B97FB4D28A951697DCD, 0x05E55F92E91F7F3E02989EAB675E829F,
  0x1355B94A1CA917AF05D37A041490D187, 0xC3332B79CCF0E25A64EC2A7005985FA8, 0xA2F8A40095B45252048D94AB0316887D,
  0x89DEC8130C774EA032CA270F1C2E6518, 0x17EBC492AFC9D0ADC7FC9246E4E1B02D, 0xC46C742DB2BE11886210826DE7209C0F,
  0x6456ABB56C242177CE7F2987AEACFBC2, 0x08D2A669211D020ABFDE783DCE74B9D9, 0xC967FDCB8791CBE01B1EE40A2FBDF647,
  0x513FC07E9A6C5C08B7714D26080F7A69, 0xAD9B582CC92084E83A15D8CAFE39E742, 0x3C37EE06618D759C3D7F7FB8C59FE7F3,
  0x11DBC83FA32A434E3BADC6587409C47A, 0x9BA3F25E27016DCB162C44B635EDC2B2, 0x081448804C81E3204AACD9A9D1220CD4,
  0x6D72717D1972C5DB35D1DD2AF0A0C251, 0x46F4D2A83D4F351BD7EF40E67BBF62DB, 0x0D788AE2B4C54B7FA565E9AADE2CB406,
  0xA5E79795DDAAA9F7875F94D2C08D8FFE, 0x99D53F05FC528F303729AF2673F4CDC7, 0xC05A2FFB200BE1690493FBD611B85EBB,
  0xAA47C769C3A28D43AE9AC9BB86A36C17, 0xF80CAB4C5B6C57882D3F4AA01996B1F1, 0x6FB4A5ED388DFC6CE35BFE905AC79257,
  0x51FA2194D5E54CABA3E335CB66CF9861, 0xFB3F45A73125082CF683B3CC564C2E53, 0x702F26323873AB04C1228DD2334FBAB8,
  0xBFA059C84058E62BE90A74E8BB3A85E3, 0xDD2137AA88FE18F1354B5795DC95F44A, 0xC268AF0A9C6E889CEEF1DECE64206299,
  0x8AA691F101C47D24045B0B9E648ADF00, 0xA13931BDE26121FB8DCA1CA6EC919C84, 0x1C24B0B48E28F14C03AB74EDFB5B6591,
  0xB17B982004F4F5BF16CD74A1D8DBAC5F, 0xA5749B64F4ED514A85B3098117BD0F2C, 0xE169C9F254C37C3E7F9D23D09ACCEE98,
  0x0F449F644E2012A32C12F03BE4D6C2B4, 0x75752B84D92A2CEA7CDD90DAA7E99BEB, 0x3246EE12A0FB0A04C27180B4CC103AEF,
  0xD20CA2DA07CE2A55B4F5D25ABF1DD3F0, 0x1DF5F30603D771AB88A2B9CFAD3BA458, 0x4901728530A0C0333D79681F9C57BEF4,
  0x2F7EB54CA062E62B45963AD7A6AC372C, 0x34DF7B1E51C2A8A1206B811734EB4EFB, 0x695BF1059C826665F985BAE6BE58C0E8,
  0x7054503354B0F0ABB5AEFFB19CE4144E, 0xAFE976BCD41C3CB50637B884EBCB723F, 0xD82F9A0521314F0E55CCDF08514CB35B,
  0x1B4E2DCD9B5B8A892EA537525101E076, 0xBA2BC2AA8C7D7C11285300C6C7091F54, 0xB4D3482DCA7894400711E129EE455E59,
  0xC27F4CC8C23F332DEA891CABE869ADB9, 0x528E737D632578E1498D882D85F9FF25, 0x57678AB561C2F8F387EA476BD123F1C5,
  0xB1700202E175587217C2B07A9EE3EBE5, 0x57D7BDD023806B69FCF7DA5ED4D966B3, 0x669CCB8892122430261B5F25D0A367C4,
  0x455DBC82D16C40E3021766CBF479F433, 0x113442E71D062AD7BEF5487C6FFAFBDA, 0x644E011810C92FBDCB27EE9D712F3979,
  0x1BD2DCE76AA0B658CE205DA5F2EC75D9, 0xDAE98095E62FD6CB60D2665DC6154C16, 0x5D17E0506953B005E5FBEDFAE54CA438,
  0xD4BC0A7AB6384BF752EC6D16E5FBDCB7, 0xCCF92ABC468AF0646F49A4E2B74B26E8, 0xD1D6267058C526B5C2E17CEF697A8A7A,
  0x080C94D04B16AB3CD51AAD57956C4AAE, 0x3B8C52623C923540D190AFC54065AFE5, 0xE3850C51846E54E65DFAC4A23FFF5B47,
  0x3163CB0A94ACF2AD1833A107B07A419C, 0x537A0F0B33FEB7B01B15900B3011329B, 0xD548DBF52FEADCE2F8D158DC5DB580F1,
  0x90CB93E1CD3DD8823AD39DF52D62AC3A, 0x373364D695DDCC6A5A49D5C16F4D748B, 0x056810E1AF2353936F4A7236A62D8577,
  0xBE62F3C2FB873D606ECEE6451D5AC10C, 0x32779BBED6A8028445C403073851B978, 0x75355ED9D14C7E1F8A92202BD0BBD078,
  0x626E9BE6E05BA64E75FBC21A644A311B, 0xFC71D6FBBB13DAED004692B68CDDFAEF, 0x669CDCD3832234103EDEE10F75D3804F,
  0xA972F03AAEBAC8F00995768B9E0C1B45, 0xB408EF4618D462B16A07D1BFAA0BEEF0, 0xBABE7668675392EB2A3B398D8A570B3C,
  0x9A79EAC7ADD1EF42D0B8BC25F11515AF, 0xE2A7DB2748CB4088B6BD945171674CF1, 0x9D58EB7B2C57100219865128D33C59F7,
  0x3A95246F7AEEA94D494DEF013437CBCC, 0xD06A3ADF4596611A09B6BEF3DE0E40C1, 0x3435DDD66413E0C1F11186AD97AB2A26,
  0x4AF80E5995780968C873A64794A6514D, 0xB0E58410CFAF153E7137B04323BC7105, 0xEC17ED36B10655F4450B04FFFABD9FF8,
  0xC97802EC6EC33F9402313A3E7D4471D5, 0xCD40468C793F9CB89D7E6E0D4D08E59A, 0xA08A3FC8D65F880DEBF520587B1A5C8D,
  0xB896FD3859B37FC7635DE1FCA889EC0A, 0xD818A2779BEF75569E776A300C4AA39F, 0xF3A1042C9B9F0357FB62B05AE460686A,
  0xC070A2A8DCF68EEAFDA178B207C58ABB, 0x1F5D9352AB3908B5A20C4308EFB4E0E8, 0x38FBBCA2407BB6EE79872473E764C2C9,
  0x968B5E50B032615BE8768A5C431F27D0, 0xD8CDCD4A6AAFE4B492DD28E3B67A9556, 0x8F443C956BEEE953B592B36996B19E39,
  0x42D702E166BE9C2111A15BFA48E17550, 0x6C2CD641A7D541481E71FC1A607149BB, 0x320233154AD7E9C2192DB88F66702057,
  0x9A9E8A46E1A219FD4AA74370EA12124F, 0xADB6FB4177C851A59944DF64B830AE69, 0xDCDC20827E0E3B7D8973BA4D63591291,
  0xA65C90E5C127598EFF227910CE9F9DD3, 0x176D25A7C5E2AF5ABC8619ECBBD124F1, 0xB22829295415B0EADE625637A7093500,
  0xA4150C18E4339641DBEEC29068A3E004, 0x3379F7AC8EB2FD126BD08B288D6366C1, 0x373EB905777E23969C21CBB9DCA6026F,
  0xDFCE33A8CE22B8D5FD6A1F33FF274F6E, 0x808C64B141AD95A09F7CF0CC38767DA2, 0x072AB9DC9F29FE347DC0E3B61AF07268,
  0xA14A7086C3831A80664D3E3815C8B0DA, 0x8473E1D870B33C161E1D1093492ACEE4, 0xD64917F6CC642B70AA42A91BA8CAC5D5,
  0x1DD55327D5F45C013BFF7DF6009FD4FF, 0x2BA411DFC2B04FDC1AFBB8473389736E, 0x5A2BB8EA1AB5269526E1C7A57EE32FB9,
  0x5D257A75C78C4D73F03EB38B74BCBF30, 0x3727C270FE6790C0C060F6D44B22B279, 0x3E477B6C60307B166FAAF16F178951B1,
  0xE0223772B345EBD9870FD56373730B61, 0xD210D1A6EFB92F0EE6837CB42459A38C, 0x549E8170FA0F9BA56F1B3B041AB95F50,
  0x0FFED943A019C47189216993A47E9001, 0x86FA6F55F094957473A4297D39E4C1EA, 0x9EBBB018DD5EB39A502042590CC060BA,
  0x5765E171A075EF85788E7381A7F3FD2F, 0x1CC1C2439E8DF1E89053494526D2FC7F, 0xF7D17745F5AC9F1571C7943F38195157,
  0x97402CBCEFAAAAF4A53A8AC86730E5C3, 0x5DCC2C92EF55D96D630E5B8794A94D98, 0x7715FE7CFE290F5D4201B8B3C83211AC,
  0x2C0B9DE24812507081CF58FBAC8E3D54, 0x331C449D1600DCF21EBDB7D5BEBF7DEF, 0xAA9C61DD3EB0B49613DA5859B93BFA0E,
  0xF39426A990DE8C676432514F9E55EEF4, 0xBBD108799C493975FF4B17263A790A0B, 0x414F65CE923769A069EB1D27FB2834FD,
  0x03D5B8915B185675DA240F36A2FE1257, 0x99A5483068A5B5F60CC91BFDBE41452F, 0xF23A114FECFF3FC0CAF019623830BD45,
  0xB26881197E7AA908612B16D51045462A, 0x3BE5D375B4DF129B326DF4BAFDA04B8D, 0xAE16BBF32557342821C52C2ED8BB6BFA,
  0x8998B5B304FAB22DDB385BBACEA1B8CC, 0x0D2C35505A36A4181ED36D360BFD955A, 0x39B8407D2B435392AF2197B74C533399,
  0x8416D7E1EA3354EA90E3337513729B9A, 0x57C9E17E986B9244C73A811AAC2F6CF0, 0xB341900E7EDF0C7642961B9DDC5AEEE9,
  0x2EE6A3915CD57E6797AC61407E428DB6, 0x0BBDA8656D2775835F1E471CD5053998, 0x029646076480FFC5BF8DE631B3FAC783,
  0xBA876C3D1A30BFE916CA3DAE18B0FB3B, 0x5E4BE3F1F1031A5E13BA58E21184797E, 0xC5FDAB8F10B8B2CD2085EE6A867DB58B,
  0xED01FA12350627034FDD553CB4ADAC08, 0xE56F3BB4AE9C2D876FAC40167492686E, 0x1822958CE5E65FC7DB442AC1EDEB02D2,
  0x84F1292F21574DCE2ADC7D3F661C5770, 0x17E2738029C7281378704DFAF55F0772, 0x34112EB6AA11EFC0D8255AC81256FDD3,
  0xAF2A814FBF9B94B03EB6DAA76A705AEB, 0x188DF3190D8AC3F578487976F425B500, 0xD7226D7D3DA856F0614C2ACC20A45945,
  0xE33352CC36138E5CA69CFD8B1B1460B7, 0xC8F55F1FDE2A304185F83305CDABEE1A, 0x3D9FD1797B8C8F2C17A2B5EF1DBC9434,
  0xC7326D8730A194482EFE8A11BE40942D, 0x3BEF64733FF735D6B0BD23F1FBB699C4, 0xC33D04FC5B2572842C1820EF9A9563BA,
  0xE212CA99B66EFC7309561213BF7FD846, 0x3D636E2FC49FB1E1CAF94CF658686CBD, 0xC50745E2313EEAE360248C09EEBFCCFA,
  0xFC99E0E23756AD033754500746AE161F, 0xB9854A80817DC0035E72AC3AD9AE7145, 0x44467CED7920150747BD1A04BED0847A,
  0x74CA1108C65A4B638DECE9ADA3A32AE5, 0xE86A28245C6C8C7C6D594E65CFE400D9, 0x9F62264B64E1A090B206AD7C6F7571F4,
  0xECBF84F7153116AADAAC4C16D85AA400, 0x95BBFD4827DAACDCE13CD5773AC026DB, 0x471F0A97BBC4464EA228C56E6F1287AC,
  0x76779EF26E4CE4E24314FF91C2F0DDF4, 0x0FA4096861D91B486ED3F54020C3B8BF, 0xFCBA66E475B130868561CB657CE5F774,
  0x7BB47A14B8D2F06E99D441D75EB10545, 0xE67F60F69F149158B6C378099AA7FD73, 0x3DBB7F55796FABC1E0625420A2C6786E,
  0x71A2AADBEC70FE76CED9BCDE9F019C37, 0x97EC89ACC9F670835CBBBB42C030AA35, 0xF1D48A4F3C5C849EDACC9D0267A2090D,
  0x1663C2B6F0A330D00D869F9AC259A327, 0x20737780741B60693CF0E9724C47BC36, 0x879850E5A6A01A1CB8641F3D5FD81208,
  0x0DE9639BF127EB0180E6CF20121CB357, 0x4220C32FA103D16CA23A5E07DCD0F0D1, 0xFB57BAB0A59E3873BDC47FEDB9906D59,
  0x6709DE350A8B9A47D85850FC7DA99883, 0x817B0B8B3A0F5DFB25EE172C2E83D887, 0xB092795CF0F3FFF2AFF92FA233D0AA4B,
  0xD861871B82F38A9F4397355862031254, 0xE4DEC8701533CB5E5B559288DF610AAA, 0xE364B4D3A7F6469D7FCB1DF30AFB0A10,
  0x00B7D96B7342A8BB1034D6B553EEE465, 0xFF04A09E1159347A213B42BE22A83BF5, 0x007B68AC27806706387E9D0F251AC401,
  0x63E8166F1C524B04319258353BC707BC, 0xEAF2859F2C1E3A36FBDE48A9BB6D1D37, 0xEBF866B097C4E50950FEA741F833A876,
  0x356348D2DC65181E67E5E80C452D4EAC, 0x7D340E81579A5DE90077E735459B5C68, 0xB06F96F35DD97AD0D720A08947E7B046,
  0xA00C678ECAA8A5128E45A43DAFE090BF, 0x37CDB4158BE10181E8C8971B1FF2F9C4, 0x2FA73465BE8EC94C26FB5C1BE2F4DA0B,
  0x23FDFF194CC72584979DF256A501AB49, 0x70412E894FFC128C1419AFDE48834B4C, 0x23AD5BB6F8103E959E1A050356940C64,
  0x02394F94580F3003412944A26D9C1F95, 0x823D869E2A24625AF9F0B77803B69D92, 0xD479D9465857E6CA80B57B969C9C4713,
  0x2C83FB0FD0E5A9967E48454205D1D71D, 0x9C3375299ADA2344FD17233E4B810087, 0x08DF48BB115CC484A9F6F377CA08BDBE,
  0x3D3DD8656FD0C9F8A56F1AB92CABD1DE, 0xAC56D900FADB145CFC77C6F816E861F1, 0x3B8574AC351713E083C417100ECDD5AF,
  0x6CC859C5E79885B083A687FF777806CD, 0xC48A0303AD9E8F5CAFCA6A56D9E79815, 0xD8363E0010D3B54EFC63BF139C07DBD9,
  0x6448AF549885FE14E99F6306CEF8D3AD, 0x2FBAE3805977CF6FD21CA1DFF18B99ED, 0x888E42925CEB8E561786E393570A7402,
  0xE657071FDCC22ED4398F28986347F0AA, 0x9C73F4E6E7A28FB797FFB527C4D8EF8D, 0x788B001F9D75888199714CB9FBD9452D,
  0xFA01CE108405BC89CE32EB239E20495E, 0x2910FD7F84BFF5DE6F27BC43D13ABC3D, 0xC6B6A9203444A0AAD69A0D6C8EFB8073,
  0x09E909C128C392C672B78A9350732DED, 0x923BF45508EFA535C276D0FBCFAE7EBD, 0x0C7DF1D39C5F52B51961857CA9D742C2,
  0xC71E82241681DFE0509635EE8C1B3182, 0xA200FFB9EB3B3EC94DBA027D4C4913AA, 0x836590253347C07307206B275BD303B6,
  0x0006DACAAD0BBF830CFEFD753794CDB2, 0x435AB77A45B790B433D8D103632AB9D3, 0xA342A3C1043C7FEDE92B3319D93A2DE7,
  0x139860D8544CAEC0C8D1535DEEA9BE99, 0xFBCE3C30D57623C3DF7F3FEA2118662A, 0x6C53DACA9867791C11790A9AAB47DB1A,
  0x7E5F8896F03C86BB1D2ADCC120B38B31, 0x251A472957735D7247F8500F152DDEA9, 0xFB1482C04F614598122F1F161638D8D9,
  0x950D71DF1ECA2A3CFA6D83ECB91BD3FA, 0x0E8CD5363B3A7AE5938E402D8E9DDB14, 0x163B25DB1AD4CF69213F0BCCD8910388,
  0x756C378CF8D9DF3ECEF8D511805D41B6, 0xE137449B75D0E4905EE6B7BD140448CA, 0x89BE8E19964F2A8681194CA217352DE8,
  0x571B6368F616496D7DFEAC9E2A1DCEB1, 0x0368A37851014CA74269E6AC758F4238, 0xA136324D45E9E8FD5198D8C10700E3E4,
  0x673388819E52CD60DF8719E305153CB6]

/-- The block after 500·i transforms, for i = 1000, …, 2000. -/
def highMilestones : List Nat := [
  0x7C7B123EB45573B0A3DA51F78EAD843A, 0xA94D619016A2D4988C05FF9B92AE7CAE, 0x7707A6BDB2563ECFB2BCC2651D11F54B,
  0xE8FAEBB0B6AC00E8BDCF90B447BBBFEF, 0xBFB137935A174B40F217008B4D9A7A25, 0x3EBAE09C4771314AFC340557C76BF2B9,
  0xAE60A8C40DB2371778E3499C842C3AAF, 0xBBC2FF35E4B82F53DFFFB2440AAAFC5B, 0x475B48462BB102D1B782B2FD6079855C,
  0x63DC41E85C184324BFB8CEF83A574131, 0x62C3828BFAAA9EEBD57FA62F762FD809, 0x441EA83806FDB8F52A6ACE9C747BC438,
  0x397E541C029807B2571886579DC9A3AD, 0x5A3DE5B836E9F4D2D013B159BFC6AEE8, 0x7ADED1229F6BB6252573B761F89261C6,
  0x280B3E7EBAFEA77813711D817F3C6AF8, 0xDF59D9104F720B0CE36A5169CF581565, 0x6DA06FD233EC4FF2022D3DFBA13CB61D,
  0xBF0901AE92C5F5F17B5702271BEEE8E0, 0xF88F4FABCF80CA5FFE423D200C111802, 0x1C19ABABB3E154276DB6FED7F91D9828,
  0x5BD171E083CA9CDC8692408F77FE8DB7, 0xCED7B19D579BD4E922554B7569B3907D, 0xA236544CCCB6638A616C53F151C0A70B,
  0x8E10C260D681030495E249F4EDFFC474, 0x6825723E41E5E0656E5F6A6F67DB083D, 0x8A9818F8BAD105DEDD81E87B39959E71,
  0x5223DF0860822BD42032EC52CCC17183, 0x6A6661A730E450EF7FF628C9CBC8AB0D, 0x04C452A41CC6DCCDBDD1D342816F920E,
  0xA49613B78DDEB1CB19FE39EDEB79C8F0, 0x908060CE693285942860EE13D3797B39, 0xF879FFB62F4903CE92D2E55E7996D850,
  0x9FB07A1FEB5A77B2C6B8C6FD0D7243DE, 0x1D6FE8B74642F306B694A80619D6DC94, 0x0FF58381E20ECD08F8A6DB357B945DAC,
  0x4ADA59F9BFBAAA86C815C2932A66D218, 0xAEA5627E538BA84C0817A02B841AE309, 0xF0A8A906817EABB38D2D06BF7D354A18,
  0x4D814DABFBA29AE4D50701473BC0761A, 0x71B0D612CF71C14DDB3B4F2E3204175C, 0x23D925691EDC360C4BC78BE5CBA3EA11,
  0x535FFD7C8CCC2877C01305F64C38F73D, 0xE3D8AD9244EEBC097902B33535C56E86, 0x414B9CF542742F07B9D0B25295011DD6,
  0x5641CAD86DAA13DAA27EB0C6CB0109A4, 0x66F216F0A5DAA9C0BFCF91C24F4341C6, 0xEE5702B6626E41AA115257624C854C5F,
  0x47CF44C8D405DA711C37EB9FF5D9BCAF, 0x59CC39116C6671E172E62EC4CD4A459E, 0x82304D819D338DCBE09E8F592E96DF98,
  0xA02E8AE49B6DB204AD6D606279DD3B29, 0xA069DF3C76B02E44CABDDAD8F310396C, 0xCFB1BB775B36CADA7F105307BDF2FEF6,
  0x7A648396C83C8595C6410BD68E4D6208, 0xC24F13DA399789D5E067F302C62CAE19, 0x30957C161B65C8D79D799CBE49B4A909,
  0xA2B417675EE854524F80F8FF1E36001A, 0xE52B895AAD054EC9309E618FD4B7CE36, 0x5A381A412706C725F8006CFE02E9FE49,
  0x213ECF8D4242EA47DBB22B3F93B98D03, 0xCE2C786CEBC1E2AF0A43653823EFDCC7, 0x994897DF3F95F107B4E9519DE6FE1C18,
  0x512AEF0224E5E2E8C91D81B16A335035, 0xAEA6855E770DDC38946908F8C770DBDE, 0x227365AE693EBB293F083CDB1CCF580C,
  0xBBAA415A7AF39F74667450859D21EB89, 0x144EE955FB87FD490C752D76580AC817, 0x793CE0D44C2A2CDEB98D7272A40062B4,
  0x21081D9CFB9A7F15A72F8DEB2BC0B015, 0x04B30B4D1502226764F4359070B5AD0F, 0x0B8FA506580882FCC23BEE53A2F39B20,
  0xB7D9AC6F6F2EFDBC3426941FBD2E4523, 0xE64E4C348627B598D60081DC596E5BF0, 0x534DAD72C3143A304EF06ED6796F890A,
  0xA523194E19BF2CC518D721B832AD85AB, 0x4002C101516EE68386154C9F7CD951F5, 0x28C3CFB9EB2F7CE060E95A86655B9719,
  0x526A89DD9F27ADA1E54E741FCFDF3D5B, 0x73EF3271E394F692E210F52AF085716C, 0xD86BFCE12BB72947D433C3931A46DBD4,
  0xDDF48CCAD76AEBD3A21BC1E884C50FD7, 0x4CD153455CBD6A34B47F1A90B84C214B, 0x37125BAD853AB841D845A50285EA0ABF,
  0x66D20371D7C74B9F380B6E5061243D91, 0xCB687A68B07CFC424F85D1EFE5462C92, 0x84A8D0686B26946D5BC03C775D5C6434,
  0x43A29532DC996474C43B5D0DAA3AC19A, 0xE258EFB29A7D9370EB28D1CA000D7A0C, 0xFE28BC7FD4F34764B6401CEA57221226,
  0xC786DD655D23CDC6BE0734F8F427A5C0, 0x73FEC1D441BDA1B645CEDCBD4BAB6C0B, 0xBEC8A16B9A67DF93B13597ACD592D940,
  0x707FAFDFA36AE1CA86665A58E9112F73, 0xBB417CA992BB50BF6C33ADBA3EF2D88E, 0x8378FAF0B79227E1659FF2756D52E41B,
  0x3652E73EF9807437088C2F245BC15110, 0x8E7B1FBD16347F1D5984FF18B0ED6A92, 0xA97A9A87180ADD9C0A87AA373F495888,
  0x0A3874377F30CC6D6FC54721059FC250, 0xC32B121D0BCC277C7EFCFFF1519598CE, 0x40C66E7DB68E9A6EA7AEA02F252E369D,
  0xE33E69F70040DD1453F51AC76112E0E6, 0x9F16F2B306639F97980F574A3EAD08B9, 0xC24B12E9947B35928390830996B4E009,
  0x2EE1C2067D31D4CC47C2E38BAEDC89AC, 0xE0F7D5BAE12FD84A8DA4E69A1DEFD9FC, 0xFAC7A90CF2818C6C76BB7DAACF8C9C81,
  0x5DE9BE3332218E2E88CB2D875362B04F, 0xC7B45EA72E9687EF92AA8CFAED29D8F8, 0xF6FC0C35CAC3145A5438C5D8DCB2B3BB,
  0x39B780B0B5F80E95A0417DEB2C95432C, 0x2400F170FFC3432B08C520E888E7C9DA, 0x05A7050F594CB1D13F06918F0080C843,
  0x1A8515A2510BAE0AE1564D344ABD475C, 0x7276F8CDD14F34C31EBD957737D0A84F, 0x1C367F10ECD443E74418DE1E6F8B166B,
  0x74F6353BEC54B27C7AD49C3D2E5AADBA, 0x3150C49AA47223F305B70D8D6193E608, 0x9A9CE864FE06E918DFAF123D3EBE3EBF,
  0xE130EFD1C52B6FDEBC2EF726D2F6B625, 0x71F2C5F13EC843BB5B1B509D726D5AFB, 0xE7D7080E3001634CC6C8BCED354BF165,
  0x21BDC5166F61D7757A68076D5F34301A, 0xA14E4147F1CEDC2E43F5B321E8A5AE9D, 0xF9C3B676775F90E2B79BF01B4707F1DB,
  0x3018FBD0E1209B7C89029285E61868FA, 0x1E3CC3809D7E22B1FEEB949A89ED8D47, 0x45B714344D06BAC757F9C3BCE89921FB,
  0xE1852B13113842CE047855F874EF2494, 0x4F59616A928DBA0B8813A032D57A5E70, 0x25826641C3682C45CD4EED9DCFE3C3B0,
  0x39D0925273AB9417DFC4328EF7806801, 0x6CE84BE20DB0C91FDBB13D5A7B80B992, 0xC8AEB0AEC416F9BF30F14FE609F2211A,
  0x089661A68EC5209D8E3A48E977B1752D, 0x84B3D54C0DB39F2E2A43A4C90E56F1A8, 0x806601B0C828BD8DB39F843158653A36,
  0x94701C3EDDBE78725292823B86AC6C09, 0x3145841B132471ABA88D3DD4A5C2FA4C, 0x2B705C8E147A6ECD736D062EB32FA6BA,
  0xC969FABD1E36B0E8183A74319088C51E, 0xCE03B17B6DF668EE6F1281DCD73BE576, 0xAC0F1289AC673DE0DE2415CE37C31F42,
  0xB3481ED4DE00A93416682E50D43208B2, 0x0B9CBB716E34A4BC06B05FD2BC16E4EE, 0xA0C9E002A29B906E10A8E1A25773D10D,
  0xF4970519A53ACDBC17379C215898A1A3, 0xAE6A34BF51502224E1EF1C307F90DAB4, 0xF5BBB6DFF1550511BEA1F07AC04F78B1,
  0x6534DDFBEE6DCCB2C419AF0471D52063, 0x2CE72A74AB3C4FAF568AA081C87FFF3E, 0x8DE42DEE5B687C92D3183EA9B8C1D60F,
  0xA8C64D625015A08F56A323CC686B80C3, 0xB058932796BAB73D1DD89AAF02C982A4, 0x1A68BD8151B9DB5F66FF2127788F1177,
  0x157D9BE986991AEA46B35F4FC2353884, 0x95236865BFA59A05700A60AC6EB3D8C8, 0xEEEA0D77BA1D15AFC441981050E3B17D,
  0xD7A648761C04A0CBBA0C0274218EC121, 0xD0C45D030ED85EE09F1F5FCC2715FE34, 0xCA482AA7C90B9538B74F9957976B71C2,
  0x90289F247D434AFF19BD964F70221C17, 0x6E95C4C11696B506C865982CB021EA68, 0x6AF21C49D622F5A411597A1ECD1F9F6A,
  0x4C9CD13FBA877A7E9CB71C0D5CC77EBF, 0x3A869C7205007DB38298CAD64B507AC7, 0x4FA0364B9E2D7BA533A4D72829F5FBC4,
  0xACC85ED4CE230D8D731A82DDD9212C2E, 0xAA3CE421EBCB46B09819F87C0EC59E2E, 0x88830BE42EDA40CF98755B51CDC606E0,
  0x26A7223F1B8C9BBFC659A34798B67D8E, 0x81BA8C0E934C2E9689348AC2E9B96506, 0xCF181889CA975435BBC52FF286779A4D,
  0x30B0D0034F4AC187DA90594CEEB03ED1, 0xA1914F502BFAACE924CF8CD24E8D25E8, 0x8050B4AEEAEA37BF473590611FBD4620,
  0xFFA109B9E1E1AED3B054E108075C27D4, 0x77DA8B1D0AE3EC887B495B4A6A008F60, 0xA654AA2BB77BA3B36A741793A3AE0D89,
  0x5306C1F3E9A1AE222667E4F6C6448404, 0xBE1F35626CEC2A256B2E0A72D23D0F1B, 0xE675A87DA3E7982BC69ABB0B5072AA03,
  0xAC4C8CD98E962D0F31106EB1A0FC19DE, 0x86AC21A68E82B84D0A239E70F708E275, 0x5EAB5254A2B41232A6A312A9758C3DFD,
  0x00E1EC245EE796A3C4512295CDCAB635, 0xBAEF7B4A2ECBE81EDEA11B34FCCC8A82, 0xAA7940683929A66BF63D79D55BE5A195,
  0x621E411C65FA69E2175B6862126F8F65, 0xEF38D7527959013E7376397D9CAA036D, 0x2B84A093D83BC1B55AE12C8D372758B0,
  0xD9885848E392A98BFD9E7EA03D15D3C2, 0xB5725CDD71F5EB40B4C4B76A36156F68, 0x4CF2475627AAD8E764D8F0E263E77D42,
  0xC210CEF3A9787E43BBDF16A62494825B, 0x53307904A616683E00FC8221E57A2DE4, 0x7D63B68F678F6F562D0B0A1DC9DF56BC,
  0xA19E7E9F534DDB15752A8E1838DA8D08, 0x6965C6115EFCCEDB4AF8B704CC3FFCD8, 0x5F902412BDCC2F0B0E5FDCFF0741EB60,
  0x0E94BD1C14728CB71D80CCA13CB119F4, 0xB2DC7AD6649CD46B52B2D51BF3761E6C, 0x36256A45F3447826385F8DE13EAC9C9C,
  0x696986F906454874730540FF7E80A932, 0x664AF51C9A2DAC6EEE9E1BAE622CF8AD, 0x54B2C07463023838FD768C7C1872351A,
  0x1EEB91B595C8C8105EA62A858DDF0C57, 0x69C1C8555C59D4BECB1448382AB8B8E4, 0x60A9C31169F2360C3170FBC8D9823767,
  0x78D759ABCDFFF571A90D59366FE4FB11, 0x4145CD65476391B91AF6452A4FA5FF2B, 0x588A7B5F5D2E9D502BB988E47DB3FF0A,
  0x320464BB0D051233CA828EEE20CCD52E, 0xA947B21351B4A653C51D9442997637AB, 0x1CC27C9B71BC5152897762B1AEDFE35D,
  0x61A2F619E161EE9F8FD39C1EDCAAABC1, 0xEEA2D6AE10E061978E68F74CBAF79858, 0x106E0E93FBB14088776138E362728E9F,
  0x76132D6FBB425DCA4BAB66C036937C23, 0x80EB03A87E10B8192A411AC5A6A48280, 0x5762D3C1E95FCE0D99D755DB8F393937,
  0x1CD3ACE1F1BC3A291005D8125FBDD5D0, 0xE2FA5CCA5C9930FAFF144B64DF604173, 0xE587A47DE1C0F102F2074A22867F9B7F,
  0x65890036F67B30FA14A987DAE73FF52C, 0x0BBBBB69CCFD9D03E896F8B91EF395B2, 0xE93A4A8298876DCE81BC2BAFFF7BAB17,
  0xC7661128B4F3C2843986EAE859C93FBF, 0x1CD444614B17F63A68FFD2E92C851F2F, 0xF8816304D92D33D88701A15858EA0F33,
  0xEACBADA98473228E4191C7AB9BCC07C8, 0x6D83409EBDBCF26E7643CD90BF3731BE, 0x7560A64CE92EE27A833CD91EE1B2766D,
  0x4C4FD4E3CA0384436CBCED4E6B3E01D4, 0x542BDE62B1F9C7BE722CE426DBD39892, 0x58B71AB152FAF32C354C17C3CE99F61E,
  0xBF2F071C3FF6140F349E0DDF7A5C6B9F, 0x0ABFD1554499BEE4D637045F0C1FE283, 0x40F34F83D974329D7686FBB2957AC831,
  0x5DE41D09D26AAF5BB89CB7C7CD337CD5, 0x32F32DD9067932177900D55649DFF9E1, 0xD40EAF143580CE02937682966E3EF3D1,
  0x183B82D5A0593305C4D728F2540E6B10, 0x1B3A0B38E9BBBB2E18F57250D876299D, 0xFF5CCAD15FA52525C7BD464DECF35808,
  0x3F4B76EFA1746CB9302E7C9B68A701E4, 0x8CF60A01485D6E26471BF4B80CC315DD, 0xBC076B3398C45D9EEA44252ECCAFBFF3,
  0x69BF1063A6ACF8D38A9E80E005646876, 0xE52AFA5CB5991BDB4C313EB156DF9167, 0xE9187299B03905401EBFB4A1D59964CD,
  0xF441CA7BCFF7A1960ECD66743EDC6F08, 0x4C0024AA23F626488C890C7368345653, 0x8AC1D9B8C3B73AC8A2899513486E29EA,
  0x6387FF5277F242618C4A61F5654C13D0, 0x86B1DA869E2AD9661739EE340CA00C77, 0xFD5C3F2CA861FC10E60007E781D89538,
  0x01065F879F705864F8D165915F1EC810, 0x868D3CEDF18499E6DF813C188663BD04, 0xB1DF65AD2DC4F148C7B5DB645A8A81F2,
  0x4C01A6743F6EC2E0AC28F0A4F5F6B092, 0x2DF6F9DCA2C1C9458E4CAD2CD68DB99C, 0x2DCD48170389450D8149ECB19053E6D9,
  0x64F4183AC6F3EA2EFCC4084DB2EE1101, 0x93E37A9A4EDBD843335941D5FFCEAFC3, 0x93DB668B67B54B7D6ED39D868C08FCF6,
  0xBA358BEA36929B82C0231921F7D02416, 0x48D42FD0FD6C82B2F7471395F4092348, 0xA6F2A47A8367EBD562096BC4EFE688DA,
  0x4AE78F17A079CC36E25918AB4B3C5449, 0x9E200C981746EE768CDB999D659D3F20, 0x89FB7B73778DDDB039A9575B46B767EE,
  0xFFCE846B1F530B2B062B63B0C84F22ED, 0xD73AAB3B4927CBE6FA9D853C4A54CD40, 0x5EE89AD16E728C68C2F2A42C7DB6A45F,
  0x0CB66B176469F384A4B7358A011692CB, 0xAF66930A5464158D332D6AD2AFA1DA2D, 0x4F1E1003CCC093D365F50B8416F9176F,
  0x2E5541664526FCF5CDD1872EC826A9B9, 0x3408BAF7394B6B3254150A306078094E, 0x9A39B8595A9A96E5B0E4D31F17E32E6D,
  0x36532FCE0552860E3F54FD7FA9D071F0, 0x5C64D935B6A3F20E4F68E19C004C1587, 0x1B14302D1DD81C644B2F8A92694DAD93,
  0xEDB7FA5F307DEEE9382C786E4E1A2A04, 0xC237336D930FDD7A61790C914FF8C1C4, 0xEAFA485401715CC3C0A5BBBD8F2F76B1,
  0xF315DA0A573D4AF6B967CA34B3336F87, 0x590B93EC9E070D0B1AEC5370A066828B, 0x76A2155E37FC9B34870A52E07D27F562,
  0xD2ABA0A78F70819554C57CFA1EDD884E, 0xD4BE20F43CB5F8776C3BA5A22D3D7DA2, 0xFEE649E1D0BBEEA783F5952F708987F0,
  0xCE767CCA6ECB1BEC2D0123F30A209183, 0x98632E2A5278EBD1D6A5BA506810C2D8, 0xE5D7D35E7A0946F997031FD1F72A088F,
  0x139A0C752A0B8980C7F344A18690FB6A, 0xE5A7B1C76A77EB490FAEFF65E8606B16, 0xD7EECB4C1E1CD58A0DB111F7E8D543B1,
  0xEC7D887C8ED0BBD2CE59E7A943568EC0, 0x649DF175B2CC1F372EAE899DC7F60BC6, 0xB8BBD81ADBC70FEEF7C4711CF2CAC5A6,
  0x5D75F774A3C4B15BC59D8F4CEAB4A5A6, 0x1E6B6186317EF3AFA7051D4C395F604C, 0x8767C99E6AB36786E073C546E610D196,
  0x4125CE109D5A0AE7F1939C21888DFBDF, 0x108F3C3B6D12EA00C23EC44561E54595, 0xC68BABAC3BF45C8BE7848AFC66D74607,
  0xF9B786AB1E04162E2D266EB8F998AADD, 0x71B921B9AA8B68D9AB539674C75229C4, 0x80BBA0EF4BAD187224111C61B8DB0D7F,
  0x4E7A4F86888FE2EE3058BCDE116848CD, 0x5DC5D151C7B6A26E08223826A8291F4D, 0xFA13983F4E5D88F68D46C1050CD040C8,
  0x5A2B31C79EE11BF3D909EB9D188F9433, 0xCFE3CFA299270EE715281D3B84D10500, 0x9E1998D60C8B2F113336D495D42718A3,
  0xA17D959539C320A35505D8CFE95425D2, 0xB20888D83BBA380D97A920454F478DCF, 0x4D2B9E46646DCFE71E88DA2038A11FBF,
  0x1B02931518C5FE848669A4B3F2DF8DD4, 0x75C3BC180C7692B51FECDCC3C38CBCBB, 0xDD6F28B226B86B2836EB78A436B2856F,
  0xBE841B667A63912C38E227C2AFF32831, 0xC0771DF146CA59CB017CC9D31A6ABDA3, 0x0E6549F2E64E65CB81EA632016717958,
  0xCA645136AC16D499117B36884B1BCE16, 0x27F043C1B27D6FF309EE0ACB711748AC, 0x1759639727068FBFE9EB7A5F97886F9B,
  0x6BC3349B87EE06555FB0DDE3A22A96AD, 0x2E9201AED966A85E188E1ABE8F7ADAC3, 0xBE90B9B38F25B4DD154F6142570AA2AB,
  0xE923D1FB7FCC258CED25F18FD2667696, 0xD0805828E1155219098DB35671F04B92, 0x2D24C06BBB2595F37364F6B9344EADAF,
  0xB71ABE373B6F617C39A96D3122E83F58, 0xAFAC5BB6ADB3890C8CC74CE112CE19EE, 0x7EEB1391CEEA5842C80EB63251C8EF6E,
  0x5CB120042F511586D1629E81A981E44B, 0x52518137E8FDD68377C8E8236729FEF3, 0x9047036046D2CC9D0A2C68F467829874,
  0x82257CAF762B243645B026145BC9A50E, 0xCA000351521E539F0E2668F267B7E642, 0x70F08D40E2BA15E8C136FED7B3C1B59C,
  0x2523E2C00B53E08338B7792F4757C778, 0x15520C27D0B96FE44680ABAE15E4CCCD, 0x0B6DBC78B45636298FEF07FFB0F72446,
  0x2D156243934D860134D6F70EE64BC0F4, 0x0A98A4DB25C61A3A23328CC3A4E4E351, 0x2A7474ED00516C7506DB665306323AC0,
  0x3B50C440C11F6D1F9F863E17A7EE9663, 0xC6A3EEED050886912F83E7AEFCCD9607, 0xC5AC2DA87F759ACA7CCC33FE97886B8A,
  0x6EDBD232A7D89DE453032E6AA149915A, 0x391359222C3320A7FC903D79275DD65D, 0xA97560E5D07DA2370D66283AE7722C58,
  0x4971C027A371E66276B812E1F3EB04EE, 0x1F1AC5086EB4D421F4B16EDEEA9D951A, 0xD338E8CC8FCDC86B45684D8EB2DAC5BC,
  0xEDE170C088CA36D39338F7E884FD356C, 0x66A988CE50D2477FC1720A291168B19C, 0x29074816F65366CFFB7455A1A9F619DE,
  0x2ECFEBCC4F25D1D809980122B7CBAB78, 0x8CD8AABA11B5DCE7BFDB78A21EAE2DB3, 0xB624D054EADFF2CA230949B7770E1DDA,
  0x99F25356236EDE39D68DAA0F07F2D517, 0x5C82A8D73F5772EA21BFD9341427A8A7, 0xB87209B16A60F4F8F7C592D937055CEC,
  0x90C6D09E5DC2D72D66A9EAADC32997A8, 0x4B7F8D3FF52D614CC644BE5194B0B06D, 0xF15AAB7FE633FBD5271BA2160C310E31,
  0xB41271D0CD00378203277F6B3F50837E, 0xCF59916F9354AE9337862F49EAD11F05, 0x2769B81111FF83813D561B9CF1730BD9,
  0x2C3846EA7A299B51B45402B755ADAF52, 0x2F685C36408F0A95C9F598BBA570841E, 0x7DDDFFA654449DFB7BEEDED0C07F4B17,
  0x2D0C38B8F47396B1DA4D89AF5098C4C5, 0xC4D460B35769D46E25AB2BAEF4C66D17, 0xA159A26D3CB43F473A5B09DA822DE825,
  0x20495245E9938E0299F1F019837B9910, 0xFC8E4C0B955D7FC6A2F0D9F150AC3ACD, 0x27C9E9735C15166C8F058E8E06AA6841,
  0x24F893EB071F37123C202F2FADDBC986, 0x753B256B06D7B1114C75DC75E47225A0, 0x3A605507EAFE47311D2FA0595E6010DD,
  0x7C0E6B52A71C5E5E1021C480C8E9A27B, 0xEDD9B50F13497392885558311099867D, 0x3532A120BA024ECD5998FFFFC42D5D36,
  0x641FFA4F6E1C73089CE04B430EBBC754, 0x49D715930AE232F9F95E35FFFC3AC4B8, 0x02D8E47D975B32693F97194E21E9228B,
  0x139A9E2F9909EF24FC7CF346AF66C2A5, 0x95241E16C5115C6301B6CDAA90013FAD, 0xB2FCF67A9579FC6E2B34F323F92EA2AD,
  0x0C5705F09181669E1D631FBE5C1A6446, 0x8741B8751E3CE1357BD5B6C1B48A7910, 0x3A0E1168245ED4C791B930F68E8378A8,
  0xC064E213FAEE012A0E561DD646AAF646, 0x9B8F2633B68A93860A122709D63842F7, 0x22B8B5179A5C62ED0143A1363FEE6210,
  0xCCAE36F852910C8F70EF55BCA819E911, 0x4326592488797D5E739CA65E56102EC6, 0x6C2101B7F8A4B06CF7E2E591298DC938,
  0x9BAE21265321BFCF029E7E8B2776EE53, 0xAB263B87BBB58280C7DD1F337F3E4200, 0x76C0903F1C65E3A00F8CBB1EC4B14641,
  0x77C4BB62E1F36C3F3F6A3CCA238AD3A7, 0x4496F63C07D19FD7D65CBCDD8678BBAE, 0xAAE2B18413C7618A4C734E680EFABE28,
  0xB9460AE7B9232FBA94F31BDF5736C18C, 0x3F1232C379981EBF86AD3BE71C7D9382, 0xF9C7D63B147A0679AA92141BD2A6351D,
  0x0D1BECFD22F1EF40C71CD1FCEF97E880, 0x495CBE524956F00C1C8E15B237541710, 0x681CDDCFF061D30209EA8398AEF5D6A2,
  0xCC88DECA95A6829AB212151058F2C6EE, 0x8F2CAF3166208837DA4F6823822C0C8E, 0x6E1AB59EA0B424F43AB74AC80FADB2DE,
  0x18D94F37794F8CCBDDD975233F8F3639, 0x1E6711F4DA781AE5057A8E9734087205, 0x4B71579AE84C3134D30457AE997C5A1E,
  0xCB5E8E13E0451386A32E68E33BED71B1, 0x5E78B8EB0183FC598B10FDDD12E6D682, 0xBA3231F2969A9130F49ABF22ECFB2DD2,
  0x7B4836D2BE2F6E7B855AC63E7D075BDF, 0x11EA0E6ECDF174DB00F157D4FA968869, 0x8F844D31CD78601C785235F47B08BF8A,
  0xD5094131B0AF26A3E66C40DA2E95C67E, 0xED13036E9538C158C2BB1B696BE13484, 0xE12C2572498FA2B39C456DE6E12418E4,
  0xA27645E027CCA3B370C8E4AADB653534, 0x4A0CC36B0F17C3006C9C3B5F371C15FA, 0x77D2CBD730CC589E9396D885A30DD1DD,
  0x72FBCE28C6B8553413040E72A0817AB7, 0x136767F72053A3C278AC2AE0B7802C54, 0xF30513A191D45DE77E810BC348CC79E9,
  0x6F7FF941D02419992C5BB16FE7EC0B47, 0xF6D0D06D17FDC16DBA955F5B7533E5F9, 0x69CFD2C09A9F394D784080DB18808273,
  0x57766DBE95F8174CA116CE556658D3F0, 0x74D7041CD8935ABD96EB93D59F90BDF4, 0x1CBAAE4DB28766C4FE9FD6A6B033B4DA,
  0x5B18E042B8BE1B6617842525393AEB64, 0xF4696895D220BDBBCE6348DE16AE03DA, 0x02FE20FC952BF2764829AF67EF38DC2A,
  0x5C4EAD77DA6A113221E6201D224A1F04, 0x3820BDF12D86DA27235B1531DBA88A4F, 0xD76205183395DA72B268502CEE5894F0,
  0xF0C18189BD658FBEE8588BE92FE147F7, 0xBBE7EF1AD5758D9D001897ACF3318088, 0x8C23603C46AC798E0843285AABEADFE0,
  0xECD412F71EBED2ADFB4399FA4AAF7986, 0x91BD941B1F061937230EEC5884381209, 0x15A1B109485320E0AF6618733819C429,
  0xB562F2A5B96576452F8DA7630C49D40C, 0xC77F85585A67E1EB7F3028D5548ADF70, 0xDD6EEF8912C3E0C587A7C4018597E66C,
  0x3D9E42B28875A8C4F922AD69A2770BEB, 0xAEAD75B3948BEACD5E1460B8D2A34C8F, 0x2A214398AEE852F855343D68AEAD7C17,
  0xE58928C25FC098E3708C5EAA40752B2A, 0xC5AA48B2992E1C90B794277766B368A1, 0x95D98D5539E12C803AB7E1C8260042D9,
  0x51C7746F93D437C7E8E4AFD4981F4EAE, 0xDD3B5C3F78D8F7F54A250EBE91DDABDA, 0xE51B3BABD6B1FCC5BC01FAE134E538A2,
  0xF230D64A3541DFB29976936AC2D79AAC, 0xAFD6CA76C2F661A24947A021B95C7B36, 0x33FB1CAA30D4289D7DED99474479FB45,
  0xFB7E54831D3BD971D2CA036ECB3D4324, 0xE2CB0D271D74F6DE780403DBE356136C, 0xCCFD0620D5D38EBF85A946E3632CDC4A,
  0xF3026341D5F8AD3615EEDDAC135FB139, 0xE46441189B65D291B88B630E5E4664F7, 0x0DB644815F627B7DB8F1051005526D57,
  0x6910E3C4CB2BB8517A92C46608E59D7A, 0xA22AE67BECE10577304465459D1D6EDC, 0xE16556C4E68C2249D313B578DDD541DF,
  0xB0CF3DA2E7DFD76DBB93FDEFB9C13C4B, 0xA651A29FF6C2F2838BD23AF008A50ECA, 0xE93B50C5D3718424687141699D0275DF,
  0x98FE13BB8C9E30CBF94517F63F446719, 0xAF28785A9A483A80BE79F1DD8585C5F9, 0x2458D2FA23DE7D422B4EF65BC5468325,
  0x5EC78C3697AB12486D2F0F5F683CC418, 0x6EFE2D33A5E93D6AA2C68BB4C28CD37C, 0x8EEAF0F6FF994A85B170EA752E85363C,
  0x5DFE5432D3FA823985903F7D8A69E1DE, 0x78BC1F74C69FBB1E2B95E400A44DB829, 0x9E873B92B131D8C5DA018AC0D7AA2170,
  0x8180D2BC09D346BA5A506E04483F22B5, 0xFC517F11D4574D365057C2533B6DFC68, 0xF84054FDAE36260350146C33976D4C29,
  0xC4A4308E90FABE36D22210272D789D48, 0x5CD35C2F6D648499A6449D2F7BC15F4F, 0xB09DD3EAFC9B6E1F52A7C8FDACD596E8,
  0x9E25DD40AD267A363D662250A3BCB4B0, 0xF082C6134B7C92E008CB235367FC617D, 0xC289DBA540B81FA1C5B7B7448C47C024,
  0x77A26F85BC3F323121DEA754B25D401C, 0x4B4A4564B42BBA482460188A9561088D, 0x1CC4DF7027E55C20C017F24FB6F38087,
  0x47D2017DF831E48D21EF07745E698860, 0x3341E525F38DAA69C9104BA0CAE10317, 0x43B420A35202AC9FE4DFC5BFF17E3335,
  0x5E11B6066EA15C76BAB8BDC744A0268B, 0xBEC6FC03C72D0F86DDA5778D689AF205, 0x126768FDB6FDF990A0B5B0291CF69F83,
  0x1854A9970556B7FC92A8B131A40D7446, 0x14B487A25C68A8829CEB3010C2D382D2, 0x77995DA784F4C8839B64807F19788829,
  0xEDF3EF489EEFC891A50FCD263D49B602, 0x3D5F154E6577B63F9045F8E967E8E6F3, 0x840A59C0E09C512D05DBB8EED6B30B5E,
  0xC4CF1E7E3367F2FC9102A20F9D76A6E4, 0x2C37FA06C0072AC2D68311639F815CB1, 0x48F7254C1B9105BD6CE196F7BD1B0210,
  0xF942AA34A07905A9D638D164F72060BE, 0x84BDCA4D13B3DC2E9AE2E114269518F9, 0xA3009EAC7FFF00FBD17A3BBEEC339676,
  0xB8485A3A654C80ACB09F57C1CAB8A885, 0x535E6BED5CA10A7531981B53FD4CB1F9, 0x8458E58A390C944B3749F7BD708CD230,
  0xDDFDEBCCD9FAAD3AA478E61D644ECDF2, 0x4933D775E1664A3B5DDB68B8EFB465A5, 0x046B08FB1AD8EE296851D68BD1419FF9,
  0xC390E26F15A5B23720924275A4FF5FBD, 0xE14D23ABA9E401C20F62554ADE43B58B, 0x02059154906FC27A9AFE0C07ECD36EA0,
  0xFF1D77AFF68B6B97C7F50966EC713986, 0xD67D40BE23DD0722F8461D7C91DC1D54, 0xBD8AE3211D767EFA9227ADB9D2FD36FE,
  0xFE8EF8C7DA6E9428ECB1172AA1F9EB49, 0xDA8516C94B64D1DA4E9F93F962733409, 0xDD0A659C3B9ACAEBA5B3DF0E4E8D7670,
  0xCD1AB89BC264E07677FD8A633777E5EA, 0x8CD1993D86DC01874FB2D093C56B9D7A, 0x88483757F583635FF82D1BF2F9D9DDD3,
  0xB54C949B3D4E6588210DCF73FD0CAD5A, 0x92D78CCB8ADC44073E324591576BA323, 0xC46D8ADD96F808722693C27A73CA2149,
  0x401FFE3C1E0A2C2F8A6618D356B2FDE2, 0x736DDFBFF9BF531696711D12C2D43D49, 0x2D9A4C6C9AB8454CE7F83CE914A28FD1,
  0xE5D53F23DADE34107ABD1E422AD1E7CC, 0x876DF2BC40465DD2462E3431BF25E123, 0x3E42E909CF8D6F23F17B5AF196C04D62,
  0x3A69C4F5142113AFF34B7A3711A3B785, 0xDE0E69647375BE4B8B4AF444F99E5708, 0x4A4E721E4D5D634D9CFFFEE99B417832,
  0x668D0A7C3016A1FDAE22BAAD31938F24, 0x5ECDF723CE7A3CBF36F244E1BDD2AC7B, 0xB682E49547C65149DE6CF81737D641DB,
  0x97DD65D4C91187314C457C0A4724CD34, 0x46C7AAEA4DB587262F18392F96626649, 0xD08A43BA46DB0D739249E140E7D0F0F8,
  0x2CB8B8A4AD8378377D252F50E86653C9, 0x5C8585D5014557E39E4A4D4510BE8671, 0x0CCDE940566F1554D66319175E675F64,
  0xAB60656B5D2434705B0C96BEEE64CC1D, 0x1EA7C978064399C1CFF9313D16AF60D7, 0x86B81E32FA6D713FC854050150B383EF,
  0x8899A548B51222A8B00C82F6945D3568, 0x627F877E17BD526088FB7FF3D1DE95C4, 0xA32679539546E46E82DECB5889BC48EC,
  0x27B056CA2FD3FF0E3EC0CEF7AE470EE8, 0x3BDE4D5653E39B7571F751840A4BC222, 0x34EFCEC51C55D5C6E4E3BBFE21638028,
  0x6E44C237FBBCFAB42B56D3850F83654F, 0x8BB5589F4FE3BDE4A673FAE199F458A7, 0xE3EB7C2320D5A6F13F2F705A1A54CC5E,
  0x5573E7036D853DEF6B2379DF353D4B75, 0x706EB689AF1D3398580377B68ECE0363, 0x0FA89B6C350302D568C76058A0C25CDA,
  0xEBB045AA87A74C1B29335C2D98FC2469, 0x8A40AF2B4C8C926BF50C3A9C222484FE, 0x620124E89559F7B78F895EF0B9321608,
  0x24678FCC4AD9C030762A3EFA740D9C83, 0x143F4442D72CFBEDE72EE1007BF25ED9, 0xED213ACAA641FB58A6E9C8B4E039D4C4,
  0x7313821DB19E1D17DF80A88F7642D664, 0xA3076ABF1F101BB625E0729CE8CD1668, 0x7AE11E3F7FFD2A4EDE6705CEE63C0797,
  0x4D60D9B872D41D75FBE02AFF0AC0EE6E, 0xF5F99339CF3ADD024190CFC0C05AD4F3, 0x86207599E65E4394C320B1A6B7F8E787,
  0xB99B1DC4C6B8128DB38ACD0FF1B62677, 0xDCAFD1A2988614934DE180388F056750, 0xC85393A01CA9190C69E29FF370656EF1,
  0x519DB4B670DA0E120ADFF19A4CF95D6B, 0xE604CF40ED8632CF7CF31434E3FEF3DB, 0x69C086E636C60D4B44B06A76A37A89F6,
  0xF31E67C2E40A370748CD250AFDF1792C, 0x198DDD6E7D26FA3A911E377A268DFE2A, 0x34CE2727B96B245DD7ADD6B919D590F5,
  0x276C4D095DFE3B0ACD9BA4912510D93F, 0xA49A6F9BF9EBACE794DFD1CBECA8BB42, 0x56206836DDF8D7FCBC81DF8035BA329A,
  0xBEC09F92A9C9B600E461861D3C5388C1, 0x47F93807AD7FB3860EA61F2C234AC571, 0xEE49C7EF6904B8390927D4CC7B13AC34,
  0x148ADD228C020ACB3904EDDBFFCB34B6, 0x9F561BD0A4743973F45571584DF243D1, 0xA6EE33FD9BEDDD7CBA62ADADB671D853,
  0xE0EEAE35C745A908E2F60BA0E831708C, 0xBDEDE9472A2A6A5C24E517681E209A5A, 0x87B34143F42884E169AAA1C36327195D,
  0xAF2C3C49908725B621E9F89109AEA340, 0xD05ED06B5507F41E531A086E3A19DB12, 0x8750E6B237D8630401FD905DBD8E24B6,
  0xE718BE5CB5707F86FDF8334A1E59CE57, 0x5DD174B5C0E167ED9CE954B695B50553, 0x12FBB9812244916063BBB7778181B5CD,
  0x81F025A3B8CA93A22E724C3733C91473, 0xE451C44D9884CD3C99802A7D2EF226B4, 0x533ED4FE7608C394D050896EED1ABB69,
  0x6462672230AECE13505753E8453C2CA6, 0x3737762C493F5215B6F6ADCE3A21333E, 0xA0896E416AD8DAA07CD29D59B7E47459,
  0x6B7EB11315CFC0012E9E304C990369F7, 0x246221FC4B4563D4A5A9BFF4D8C5D884, 0x44CFA1A193301A45F8CC187B4FAF8BC0,
  0x04621805F666445BE0B3C5812A0E0ECB, 0xEF91ED05B28A5A71ED7F2EA87448F4CF, 0x4F3F6C85199CA0E18F8793C8E1A4B07B,
  0x68B0A162EF5C3F529FD4C839C8A90D6A, 0x4CF6A14C768629F38FA5C35A2C51DB20, 0xC19AA23CD1E3C51F984D9588C4419762,
  0xD181F8D0B2B25F210F9E0C276720CA91, 0x83128CA145F8510BFA337983C563E22B, 0xD7F59DAA8CD424F3C211D6DAC936270A,
  0xBA9D4BF1EAF72A0E0E9A1C8F9A9AC9CE, 0x977426847BB0D7F15ADEEB97647089D4, 0x2EBE2DA74493DA7647F1FEF92D0AAFE1,
  0xFBFDE579039A14932BD0F48C51D55E35, 0xDAAC8D427AFFC7FA09DFC6BB7C4FC986, 0x39A5D3933D2B89BB73F67EAC942D4560,
  0xAFE80F0FBDA07502E20A05A72CE41BFB, 0x8B1A273C77678F22DCF09AC2794AD482, 0xDC0B83A8BF9A35FC720C6900F005166D,
  0x1CEFB939C97C6517E7077F75645020B8, 0xC5A40B6D5A95F07B71F0E6E255E21786, 0x6A16E4914985D1A282C66D3AF5555647,
  0x617108F8FC69B3ED502C7784F7F7D258, 0xC7D2CE70326BAC6FB0E387E55DED54F4, 0xE8539808CBA7EB43941859360E7BD3D5,
  0x42D37AAA0D429FECCA2290C4D4CC031F, 0xC767D8DD2FE18DE3DE3A1426823F1BE4, 0xFF145573C45A7DFCFDBA2126A79F1227,
  0xB70CE7EBEFD08669518C573BA65BB64C, 0x57D3EB583BA93E05B8004C57955B978F, 0x672F2AB1AA4C9052870A3D72AE1A1CE8,
  0x1CC325D35C90869231ADF8521A231E8F, 0x27E437C23A1B635CDC30BB8584360387, 0x832978B323715605FCCBA0D65AFD2DDC,
  0x4793B6C6CAA31EF4B5D9D1F9D150D188, 0x959EE324D6416FE485AF565E176C5732, 0x332548AEAD3E0C2BAC4D8351D5813749,
  0x7CCA432D87D108C141324A97D2522A3C, 0xBC68D33D454ECD41E2C55521C56DACDC, 0x52F650887A91B4F665E031AEB2D4ABBA,
  0xDE8F3CCC090992F07A1BFFE38DB8C78F, 0xA0266946DCAFF3B949B8577F9DCF61F2, 0xC82ED1B60A03EC3D2F0B88B4A279916C,
  0x9DE5EAA2B4804212EDC88CBE0BA81840, 0x51294F93B9FB7F5F1AEEDD6F92B8EB49, 0x4B0EFF1DF05AB92F6CCB07EB7C5F717B,
  0x32FB028059C1CA4C9CAED239A90C4D84, 0xAE1DFBA0849104AA51EEDBD50CCE34FF, 0x11AE91EE441D9ACCE39954F98260AB77,
  0xB41E07B211EB8A9CBC5B445266463434, 0xC6DC67A947F8B1FA94575988634439D1, 0x17F85929F7A8CC524AF94C52BE47176C,
  0x912692D3CCDA087F39C60629E9DC558A, 0x89DF231844D663E4090DFE3063D5ED28, 0x76D682818806569C7D07AA0A6DA5E206,
  0x72FC557AD877E4F9BBB6398057FF3263, 0xE8555DFD4D892489618240888674208C, 0x41FCAE1ED2691A6194974832AED7922A,
  0xDB9EFC3FDD5793F02EF5E87E665D5350, 0x507BBBA4A7455CD1027AB42E5F1F704B, 0x3F9F298DABDE4C027BCD478135D0F196,
  0x73B8F938CCE53166ECA6389EDFE96F8A, 0x42C34F44FF0412F25B2030EDF23B62C5, 0x6F9EE630077ECEED4B1C4445CFEB33AF,
  0x2432A9D75BADB7E4875E17E94EB6E78E, 0xE450167FEA3979AE4965BC0E32C72231, 0xB0CCB77D836AECB22BA9EA8D7A9AB9BA,
  0x51D5017C14F43325721E5C9448D6DE1D, 0x0368D4CE2FC4D4369422BC768F2C5C73, 0xD670B0D4165D6FAC77A61F56B101B134,
  0xB2AB974A4347E36C606FB5EC9C1E43EE, 0xDB9F6757A100F2AFFF1AD93AC2E9F4E9, 0x7271FA1F3BC656577286605B4CCD0B2D,
  0xF55BEEC3CCEF54F7325BC84102812515, 0xF7377139412BFBF74BBB206C34A549F8, 0x10FADBB05B91A4E7B7A0AD0181A59933,
  0x67D70BD905E2EE0B00A392ED29F5FA02, 0xB682D67EC0F2DEC6DA9A6032BA4B53F9, 0x647097EC21BA607329AC1847C02566DD,
  0xADDEF84E125CA6D282320238EE8BB70C, 0xB3831BD01E0CA4B93C06D44FAEAA15D7, 0xC97464221FD8E7E0AA2DDCF9BDCA3F65,
  0x4D4BC16A72775009BD30A22A0278C946, 0xE5AD12AB1F327959218150BC92502D04, 0x4CF99EAA8E5FDFE06CC235BDAACFD478,
  0xCCE9F253DD45D6BBA73BE7EDD984B675, 0xB35E14ADD54AEF48BF0B64DD3EA4506F, 0xED044F5A2CCC3F0D9D3661C35AA30B84,
  0xFF6E55C63B049B675661BCA1989FA645, 0xBDAE5156BF09A7464A4F70056E38ED1A, 0xF90B6E876DE00689D9200195771009A2,
  0xF6D04C1FEB38EAF016892B6A748A0FC7, 0x433F55CCEB927B903C35EF630E7E180F, 0xBC429BA3DFD09C0B08FC3FFFA0DCF0DF,
  0x54952EA8372DA6E51D73FCBBA7CF1C0B, 0xECF86018FAB1FAF10869604983DE4217, 0x8C8615BB7C38A562264328019A059041,
  0x97CE1ACEE57FFDE1C87F4A69E0CDDB36, 0x92C782820E8DBD5FD2E6F9AF19657398, 0x547F31BD9BDB77027D8100D4B48C1FC8,
  0x9B794F3389ECDBE448893482071AA6A4, 0xEBDECDB6D9EC5C6D09EDC21B0DCEB89D, 0xE4BE9606D6F37B8A6BD7901BBF48276A,
  0xC262A70AE5130152291E76E058AED6F1, 0x2C671ABAE674126598C5B72718ADC180, 0xA883936039C9B1E669C61E1B9139F4B8,
  0x196601D9F95FF5D8279E158F6B3123CD, 0xD13F978BED668C3C5250D04C2000D25B, 0x58745F88B1411FC5D9CFE2AFB1C79DD8,
  0x10FA45CC4A2FF74058E8DB5E3E35EF0B, 0x0D537D00BE84E3C11E0B8D2BF29EDC74, 0xA79AE775AE0F863BFFD8357E70BA99A3,
  0xF67660C41E576E676FAAB039866EE9C5, 0x94CD1C2E790B61BC7900D89503816AF2, 0xA4EF37CC073D61E9DD766B76B0069CF5,
  0x361C77B90629F9FCB294F0211F359B5A, 0xA1272507681D1B4614DCF6CD4C0306DF, 0x802C8D030D8D626B29ECE6CB649DBB9F,
  0xDBB07F11127574560D1AB7D04F68A526, 0xA58DC97AEEB1669D0CC3FF4D39F2247A, 0x339E0B2CF3E0D53E88533DA86760CFF9,
  0xE1D7D58DF6C12574CA847C234BBF971A, 0x613829866414DB43C23830CC88570297, 0xD9BC6CCA8D0B2B00E721C25D69086493,
  0x4A38AB45DFA8E94E639F1DDDF4C2C9CA, 0x1238B11BE5A68087867A13C238770607, 0xE4B25B381E7B644F6262C40E11B8C31A,
  0x409B043E2E83E62AEAD286277B5DCD43, 0x8CFE14ADD205F97D6BDBAC51E1E44B50, 0x7B3FA464D8B2448CB35562A5659F211A,
  0xC38C1EC42C2E41A659CE101A54B5EEEF, 0x0ED2D7A83F7A97AD2D65CE15AD7A27F4, 0x2EFA388FF30AD95CA9A84F659164EA5B,
  0x01B6528E7BEE5C222D793D152CCB5D78, 0x9B405496331D09C7EC9B767A8613B5E0, 0x6C91743EFCA06183B9F64A36D19D9FE8,
  0x97038547EE4CAD4B48D9E2ACCB820ACD, 0x31888188335418AB23DFC2192DB3C089, 0xB7F8271895E0E1677614BA3B42DBF9F5,
  0x4170165F835A69685B5C2D2C78746B36, 0x5063323485D1A65474D36D5FA0D410BB, 0xA277963745B9706EE18C082C979F38C9,
  0xE0CF6337EAF3B0E2DFAE13CC92573187, 0x54238BCB78916602B95B7585563A1146, 0xE70F971EB1C3154B93583A5AAD5C65D0,
  0xB6EFC729654008761AC8DCEC32152F74, 0xF74448391472A32B7EDF818E1D2C73AF, 0x3470867FB7A6E86E0226CD6F3CD2D7D0,
  0x245437D5B217E08BAEED8A82756B97CB, 0xE46C4C35D01B48D485650610FE676126, 0x8003442472031C47C24859345A466F3F,
  0xB44D6C694CA5513C05DE2C861AD55B89, 0x8FB17D8593F04972BFB12A7063134C00, 0x6E426DE1D9D87A03AE94FE825E38E419,
  0xF0BC04E96F90A68282D7527B120667D3, 0xEE7155F87E97DACB37276EF22FA33BB3, 0x546E512757DDD77E678567B17DE1300D,
  0xC7AD3BB65474919F0236B8B0B09EAAB5, 0xC1042F0A3EE8C7BA5E1B19E3DE87FFA7, 0xB88E8879867AB86ADD9F2D4AA7589BB3,
  0xE2371C0DE6091641F52B299E597E5541, 0xB339DCFF42441C846B53F3C754CEC3E6, 0xD698E1416027EB01AB5BBE34E2B37D52,
  0xCDB1A49B596F1EFDE77E083853E96271, 0x40257820A5620FBA62E981703E7A6682, 0x9D3D51D91BD303A694B929738B208C4F,
  0xBA3D15F059F5EFDD4A28E04F9B1BB10B, 0xE8F5DB1DC4CD781237113C6AE1F3E329, 0xF6D358430635B7120EE7847E654FE1FA,
  0x80E6C364E6B5BB2D7F70F4D88B964FAC, 0xD74036D25DCA11E4428CBA0C7ED33EBB, 0xC866DEE4BBCC3AE3C9A5FFCA1CD6F6B0,
  0x7A01DAA320835C8D3015CB2D98CA4F64, 0x1901F2A099F7C738B903564E6BF3DB1A, 0x9C3B6983DC8E6B1025DBAF6E8E66FE79,
  0xBB6C72AB093D320E2F934FB4414EB5DD, 0x8EA9D385A2A1F9FE8A2F28A1449E27AA, 0x347B8E408624C9A75D17280468F3D176,
  0x7D0EDF73C92723E02662D8DC90F52F68, 0x519EBE437137CB18723291AE5B651282, 0x572FC1A6763BEC715DE99057BA4CF523,
  0x1BEA55D15606B13E5D5F2E0285FBB928, 0x30FCEE9D264AD8478D62EC69CEFC227A, 0x84A10DD7EC0126BBB7426A81ADB963ED,
  0x2977F952C669DB9EBFB25F8C9E253081, 0x385CE0AC477C36D3411A17BD96DBE5A0, 0xB30433324CCF81FDF8EA153A7CB63CF8,
  0x3E92DF52FF565ADF8F7BCC55547D2AD1, 0x121C38F54F10B31FF72388E44F7EF130, 0x1B158E8C83A098BBC71893B81B53C20E,
  0x0AF852859F0371D0C5921FC9E68BCA3F, 0x229228A4B757FE2636E30B3CBB7DC024, 0x7842B45FEC5D5899A2A49A6D9B246EFA,
  0x6FBB6CE44566FE7B079FF257228AB7E8, 0xAC63EA6F3616B9B96E78267927DE7085, 0x0FC980E39EE1CFB8A715D9FDEED1A1DE,
  0xC580EAA47C0C53DB8B0D3FF8E32F1C7B, 0xE9FD5FC7CDEB6E52CE4900C8CAEB2393, 0x2CCBC0CE83A527D40BDA46C31D194055,
  0xD86B259722D916B387AB784B06E7CEF2, 0x0BF91E67A802FA03E1850B5F8D28B7F7, 0x68F0DAB522E3335D8312201F636D15B4,
  0x453E31F39CCD5C3186CF77925A1649EC, 0x8F1A5188310710A01C6E845EAF680412, 0x80A31EF93849111D34F191AFDDCF98C6,
  0xDA69F3D22C0D573822263266BA16D960, 0xF15767B71F0944AD59883EE54372878D, 0x2A2B52DD1E80E944DDBA076ACDA4F67C,
  0xFA21E475A1427019FFC1BA94747C9126, 0x1557274BD56DBED344C6E2D078F417DD, 0x725DCCDE59DEC0CE6CFC879A44428165,
  0x03161305A4A030C9EB4A5F6E16D8EE20, 0x50C77B87696F463726D9F95C8175DD9A, 0xBC37A63DB1F90DFE5B53D9114B472A7D,
  0xFF2EF177D3FA1393F047426A497BBC48, 0xF0117C53946F78615630DA87DE85E97B, 0xC805E7C166596EDB39FDA1DFC4FD88C4,
  0xE8D5D497E35605655F73BDA0E5BC705B, 0x21F9D57A042D0B644ADCB1DD2B14CB5A, 0x2210FD20D1D152A930379B2003E7700D,
  0xEAEFF3DC7F59F5F518836F54AC77526D, 0x5DE0D60DC0FD3065D2F4BEB6452DB99A, 0xAF65A915C9DA5E79C6829140DBB06FE7,
  0x408B87E0CD3256BD49CBFDFBBF61E2CC, 0x36472F676ADAF1C1885ED31BAA427923, 0xC5766F46B309D1DBD0232DD35251F1A5,
  0x65F890F971D0B605793B5735429DC592, 0x3EA0AEEF763C0E82B10404D651B9B2EC, 0x5F216E70377F6EB14450DDD0D3EC1C35,
  0x6463393D631F49039E837638DD1FED2D, 0x1B1FF496A9AEAB2263E0368AC6F2B74F, 0x8ECC2C84286FF5A8D5B88D4941297603,
  0x11CDD0C7F104CECEC6F3275724C14BB6, 0x938F3E11D5324607FDC39CF32BC9B47F, 0xA16F54C7377848F59793D3AEF5B45757,
  0xF342B8F2FB2DD50BC27A6098F517B278, 0x0E8A546AFC3F86EA86A08F4DDC3AF64B, 0x87CDC0ECE686DFFC8772B9494B686A01,
  0x70B8E9F233B110C2EF369D3115235BFD, 0x73EE6A3AEE495742B6E2C10C8B2CEB0E, 0x9D4802E1DD34EEC504F3A03F8C38B79B,
  0x6982C6318A2E3242E70098DC3EF62E22, 0x115057A59026D96BF047E8D139C49DDE, 0x2150FDEF8ED57FBCE822BCC1F58678BD,
  0x5D44C11B73DF1915171294B2457093D3, 0x1E911E10341F66CA61AB4231C498C5B4, 0xC4FF99DBF1F19E875555D0E5CDD6939E,
  0x9465B3C59A04B5C7D60212F2F12C363C, 0xD2EDBCDC8C35FC70EBE2BA66FCC7BEA6, 0x387A08B8634BA53CB24725936CFF8FAC,
  0xC10B4BEB2505212F98681D3B177B831F, 0x59D34DEABAAE78DFDDA97E1F9C454039, 0x57341491F50D2CD445B2BBD4D85D344D,
  0xFB582F81E48D6F74D7987036D12ABCF2, 0xD568027EED3B4AF9DD673759D400DDA7, 0xDDE431DA37AABD83ECC1D502BC19869B,
  0x3E64428CFF351B9A4A5D366D0C803324, 0xED0D2A93F9978D8AB3B477C6E46D6621, 0x6ED6995F929048B491129AB551AFFC92,
  0x9948AEB268B5BDDEC0AD07CE8E8C10E7, 0x14DB1231C91506CE5DFDAEB2FC61F557, 0x3163631795E640A1177B6FE6439DCC70,
  0x31E8179E7420ADCB68D3DD1DDF386FBD, 0xF426FE53B06F2AB1C0ADDFBC1D24DB60, 0x32A946A5AFED3AC815B01F790696A2DC,
  0x467445E2AA8DB2A45569CD8BCB880514, 0x318B269CAA3DB2F1FF601A488353C0AE, 0x6D428DFE1BE6D0453B28188B796D10A8,
  0xE69EC49620BB9951DD6B9BE423F9B73D, 0x886C13ED21E1A113A7E74F7240410EE9, 0x24AC362D6A9E96F630E57AAC277886F6,
  0xF28F1D15DB6E9EE3734B133D76003B96, 0xC06BBABCBF21A5FD73F44304F8BBA5B2, 0x6822CC8754F68E93F73508568BDBCD2F,
  0x9B25DFF92483BFD41B2742F2F151F162, 0xF00B4625E65DD8125DD40F98D0D35B1B, 0x9C1B7E6A51A1DA85C432940EB6C1E6D6,
  0x067394830C647319EBFCC7154E324EBE, 0x80BA5D846A34FF92BE176DE9CC11D63A, 0xA0226EB7AE96C756C26B8FE7CC90C314,
  0x118D9BAEC5E115ABEB60CA14406A1DE6, 0x82C90D1912F7E6887C9B639046ADB459, 0x9DA8519F3DFFC546FDD4EEB34FECE03D,
  0x7B79A5F5B4E5407F8A48E455EF3069BB, 0x9FB1AA1BBE3291E65B9B483B2D911C83, 0xAB8E2856BEBFCB84E92916AE2F5FA9C2,
  0xA0FA55F5E343A7BC5BC2912D019FF081, 0x3C34DA49D4D9447F15C1241ED394776D, 0x7FF00EC5BDB8DB85D8207676B14F0EF6,
  0x38E4F90F6F2C6E271267F78D4AD94BEB, 0x8F5CA4EA8BB4B31ADE58674CE1AF1B55, 0x83644443BA9ED603EC38E16D4CD70167,
  0xB8228704F9F93AB437AB788D6F54EA78, 0xFEF526A41C5C42568EF237A6C1920DB5, 0x45BCA02B2BA01F66D24C2E124BCC7FFE,
  0x77A2A25030540B452377DEF307399AA4, 0x35A183E38EFCC2319DD5E7A9A304B1CB, 0x2079F00A46979A394F423CF1A007B107,
  0x2A3FC66CB6619549ACD22C7650817DF0, 0xDAE90D69AA8DD7381B70ED619DCE1E6D, 0x63793F138E749F3232C02A25967E391E,
  0x8C4F0443250A7241F63463748EED8BA5, 0x57B343E9D6BB4EA3007A7533F49E8DD7, 0xDF193857B9FDA5890E97BD5D8EAC8C8F,
  0xAA386CABCD7CEE22E1060F33134DEE16, 0x80B23EC79ABBFF604A7EF9F2FCB946A1, 0x0479581810849E521988597DB8370126,
  0x3A9E3EE26B8CA2A84022832876BC16D6, 0xA4B8FB2F2201DE7D03E9B0992A6A90E0, 0x5AB929E83E9F404EC2DFDB4D8145D820,
  0xD527773F264C0D5DCA97C13A423D8DA3, 0xD657ED51EEA1C0CA23FC9282934F4292, 0x78A4D612653434EAF9B34317EEB952DB,
  0x7AB825A935AD97C3CB3D552A940B027B, 0x156546E51A17CD2C0BA2FF4CD5EA9536, 0x7992FE32DB4778D736D1A9571098DE97,
  0x94DD6F21E425D673F98D89A2802B540C, 0x1D95743E1C8AD3F2AE994D0BC6046931, 0x1F3B64BBFF948E553DEC5564BE6818CA,
  0x010F91AC34CFD0BB851E1426A5A303E7, 0x86C1AE8BC8D204239C0903725A91E16E, 0x161CF93A2A799B4A697B628F764EE1C4,
  0x47C6867563A4BA0E66817F5E0CCC3636, 0x7376DAECCBD47B2300505EE70A2426F3, 0x2FB7287CF0AC33FB2D00CCBD80695E48,
  0x823E30F2C11FCBB658160ABD3D16F088, 0xFCDEDB5E3BD0ECEE8E2C9460A1F5AE3C, 0xF1710E8F467011DCEAD2A29ACF75EFDC,
  0xAC8170A36728FAD7755A304090A3FBE6, 0xF0332745A84D51DE3EC21D16180D32D5, 0x2F06BDD445BA78E1CD933B9B5B39F3BC,
  0xEDBF7130DC011B6E928000D8957F67F2, 0x85FE9141B701135603664D55E4B2136D, 0xDABB365FD996A07580B03F7EBEC887A4,
  0xF529C00FBCF16798CBBCE8CE9D0A0D35, 0xC3901E9EF3644D5C9B8CFCC790EEB4B2, 0x262C790B509471D5F3F93CEC9C7293AF,
  0x6B83169099C891874262C255EA70DE8A, 0x6262185FAE4E8DFE7CEFE150398FE218, 0xB012BBF710C4DBFB399BB29FDB1C39BC,
  0x9B2E7D078AC8DE0223E550C3ADC732CB, 0x6C86BFF3B2FDEFB5DB09B6BA76923731, 0x6C32F92F0B3F5AFED03563EB6A56A1A9,
  0xB75F6FC176AF966CAD96CDD583372BAF, 0xF085E18747EDF048EEFB74283A414BE6, 0x263442166398DFD520BB49F775EE8D75,
  0x6E5F723861579D676DDA05F56685CF0E, 0x2ED9D8CF6C7FF9537661C08211F60728, 0x5E9BAA031443457F664CF5975F02BE6F,
  0x39B200447D5B55006F2040EC00272D16, 0x49E98DC6610166E6FAB069A3CBB6D841, 0xE383D2419172821980CE6722240B6256,
  0xCB6D436AB70412D554D9F873666B8B64, 0xABEA65F26166F33DBAC471D4315596F8, 0x33AFB6B8050C1FAB445AF3BC6B160DFC,
  0x94388D51F09A1DE6C01A9E8130F146B1, 0x9522F86BE90686D3BA46FDAF7CA6B2ED, 0x615EE4CD42BC93EF30EAF369063CADC4,
  0xC5059742A8EF56436D41BC266279072A, 0x8202BDB7B378F62A20D1A7D0A372B881, 0xEE78BA0C4645ACD7B5FD692CA93326C0,
  0x3CFC2D3E61D091951415D4BCB442F29C, 0x7832FB5024B9F80895B28DBAA81D4BE6, 0x9F4F916B8D7734DEF2A33162622EBC26,
  0x0DA9B79E741F0980CD8A1F9948114F44, 0xA77E3B26DF08DCA1995C6D2DC55569C9, 0x064CF292168BC140FE769B1ED4EB7187,
  0x4E961C557D4C6B1F3D44E2C459E2C1E6, 0x3EA40FBC5A33C01698D5B674FFB5D8C3, 0xC49B8747B24AA12781853290B662A9A4,
  0xA73E5757ED1F74B51DD3B018132CA6D1, 0x702F7B1C0DC4AF83B2D34050EF2F4B76, 0x13A13FB8128624DCFC9D6AF0B3697491,
  0x770F936FC43C7FB1D782504EFCEB923A, 0x7B9CA0D2C05CC1A74B1302F59167328D, 0x287169DAB9276A4D2C10A95AFDDCCD14,
  0xA47578DFF3EC3C7A3748CA8B66A4D36B, 0x595298C7C6FD271F0402F804C33D3F66]

def milestones : List Nat := lowMilestones ++ highMilestones

/-- Part `c` of the milestones, 250 of them and the one that follows, is a chain of steps of 500 blocks. -/
def PartIsChain (c : Nat) : Prop :=
  isChain 251 500 (keySchedule standardBlock .encrypt).toList ((milestones.drop (250 * c)).take 251) = true

theorem partIsChain_low : ∀ c < 4, PartIsChain c := by
  intro c hc
  unfold PartIsChain
  interval_cases c <;> decide +kernel

theorem partIsChain_high : ∀ c < 8, 4 ≤ c → PartIsChain c := by
  intro c hc hlow
  unfold PartIsChain
  interval_cases c <;> decide +kernel

/-- Every part is evaluated on its own, which bounds the memory the kernel needs at a time. -/
theorem partIsChain {c : Nat} (hc : c < 8) : PartIsChain c := by
  rcases Nat.lt_or_ge c 4 with hlow | hhigh
  · exact partIsChain_low c hlow
  · exact partIsChain_high c hc hhigh

theorem getD_take_drop (ms : List Nat) (a n : Nat) {l : Nat} (hl : l < n) : ((ms.drop a).take n).getD l 0 = ms.getD (a + l) 0 := by
  simp [List.getD_eq_getElem?_getD, hl]

theorem iterate_slideBlock_milestone {i : Nat} (hi : i < 2000) :
    (slideBlock (keySchedule standardBlock .encrypt).toList)^[500] (blockOfNat (milestones.getD i 0)) =
      blockOfNat (milestones.getD (i + 1) 0) := by
  have hchain := partIsChain (c := i / 250) (by omega)
  have hnext := iterate_slideBlock_of_isChain (List.length_take_le ..) hchain (show i % 250 + 1 < 251 by omega)
  rwa [getD_take_drop _ _ _ (by omega), getD_take_drop _ _ _ (by omega), ← Nat.add_assoc, Nat.div_add_mod] at hnext

theorem iterate_slideBlock_standardBlock (n : Nat) (hn : n ≤ 2000) :
    (slideBlock (keySchedule standardBlock .encrypt).toList)^[500 * n] (blockOfNat (milestones.getD 0 0)) =
      blockOfNat (milestones.getD n 0) := by
  induction n with
  | zero => rfl
  | succ n ih => rw [Nat.mul_succ, Nat.add_comm, Function.iterate_add_apply, ih (by omega), iterate_slideBlock_milestone hn]

/-- Settles O58: from each milestone to the next the sliced cipher is evaluated, side by side in the lanes of numbers. -/
theorem millionfoldKnownAnswer : Obligations.MillionfoldKnownAnswer := by
  unfold Obligations.MillionfoldKnownAnswer
  have hfirst : blockWords standardBlock = blockOfNat (milestones.getD 0 0) := by decide +kernel
  refine blockWords_injective ?_
  rw [blockWords_chainedTransform, hfirst, show 1000000 = 500 * 2000 by rfl, iterate_slideBlock_standardBlock 2000 (Nat.le_refl _)]
  decide +kernel

end Sys2Proof.Machine.Slice

/-!
SUPPORT. The key schedule (41_key_schedule.md): τ is a bijection since S is one (R171), L′ is a sum of rotations (R172), KEYEXP
stores the sequence K in the order of its direction (R174-R178), and TAU, LKEY and TKEY give their primitive's result
(R185-R187).
-/

namespace Sys2Proof.Machine

/-! ## τ -/

/-- I is its own inverse: on the powers of x it multiplies the exponent by 254, and 254 * 254 is 1 modulo 255. -/
theorem gfInverse_involutive : Function.Involutive gfInverse := by
  intro a
  by_cases ha : a = 0
  · rw [ha, gfInverse_zero, gfInverse_zero]
  · obtain ⟨m, rfl⟩ := exists_gfPower ha
    rw [gfInverse_gfPower, gfInverse_gfPower, show 254 * (254 * m) = 255 * (253 * m) + m by omega, ← gfMul_gfPower,
      gfPower_mul_255, one_gfMul]

/-- A has an inverse, the circulant matrix with first column 0x85. -/
theorem circulant_circulant : ∀ x : Byte, circulant 0x85 (circulant 0xCB x) = x := by decide +kernel

theorem affineMatrix_injective : Function.Injective affineMatrix :=
  Function.LeftInverse.injective (g := circulant 0x85) fun x => by rw [affineMatrix_eq_circulant, circulant_circulant]

/-- S is injective, since every part of its algebraic form (40_constants.md R141) is. -/
theorem sbox_injective : Function.Injective sbox := by
  intro x y h
  obtain ⟨hform, _⟩ := sboxHasAlgebraicForm
  rw [hform x, hform y, BitVec.xor_left_inj] at h
  have hinner : affineMatrix x ^^^ 0xD3 = affineMatrix y ^^^ 0xD3 := gfInverse_involutive.injective (affineMatrix_injective h)
  exact affineMatrix_injective ((BitVec.xor_left_inj _).1 hinner)

theorem byteAt_tau (w : Word) {k : Nat} (hk : k < 4) : byteAt (tau w) k = sbox (byteAt w k) := by
  rw [tau, byteAt_ofBytes _ _ _ _ hk]
  interval_cases k <;> rfl

theorem eq_of_byteAt {v w : Word} (h : ∀ k < 4, byteAt v k = byteAt w k) : v = w := by
  rw [← ofBytes_bytes v, ← ofBytes_bytes w]
  simp only [byte0, byte1, byte2, byte3, h 0 (by decide), h 1 (by decide), h 2 (by decide), h 3 (by decide)]

/-- Words with the same image have the same bytes, since S is injective. -/
theorem tau_injective : Function.Injective tau := by
  intro v w h
  refine eq_of_byteAt fun k hk => sbox_injective ?_
  rw [← byteAt_tau v hk, h, byteAt_tau w hk]

theorem tau_zero : tau 0x00000000 = 0xD6D6D6D6 := by decide

theorem tau_allOnes : tau 0xFFFFFFFF = 0x48484848 := by decide

/-- Settles O45: τ is injective byte by byte, and an injection of a finite set into itself is onto. -/
theorem tauIsBijective : Obligations.TauIsBijective := by
  unfold Obligations.TauIsBijective
  exact ⟨tau_injective.bijective_of_finite, tau_zero, tau_allOnes⟩

/-! ## L′ -/

theorem lKey_xor (a b : Word) : lKey (a ^^^ b) = lKey a ^^^ lKey b := by
  simp only [lKey, rotl_xor]
  ac_rfl

theorem lKey_rotr (w : Word) (n : Nat) : lKey (rotr w n) = rotr (lKey w) n := by
  simp only [lKey, rotr, rotl_xor, rotl_rotl_comm w _ ((32 - n) % 32)]

/-- Settles O46: each of the three rotations is linear and commutes with every rotation. -/
theorem lkeyIsLinear : Obligations.LkeyIsLinear := by
  unfold Obligations.LkeyIsLinear
  exact ⟨fun _ => rfl, lKey_xor, fun w n _ => lKey_rotr w n⟩

/-! ## KEYEXP -/

/-- Settles O17: the sequence is that of the key's words, and RK holds the schedule of the 16 bytes that the `MemRead` finds. -/
theorem keyexpStoresSchedule : Obligations.KeyexpStoresSchedule := by
  unfold Obligations.KeyexpStoresSchedule
  intro s d key hlen hfits hkey
  exact ⟨keyWord key, keySchedule key d, keySequence_keyWord key, storedInOrder_keySchedule key d,
    exec_keyexp_written d hlen hfits hkey⟩

/-- The two directions store the same 32 words of the sequence in opposite orders (R178). -/
theorem keySchedule_decrypt_reversed (key : Vector Byte 16) (i : Fin 32) :
    (keySchedule key .decrypt)[i] = (keySchedule key .encrypt)[31 - i.val] := by
  calc (keySchedule key .decrypt)[i] = keyWord key (35 - i) := keySchedule_decrypt key i i.isLt
    _ = keyWord key (31 - i + 4) := by rw [show 35 - i.val = 31 - i.val + 4 by omega]
    _ = (keySchedule key .encrypt)[31 - i.val] := (keySchedule_encrypt key _ (by omega)).symm

/-- Settles O48: KEYEXP in each direction stores the schedule of the one key. -/
theorem subkeyReversal : Obligations.SubkeyReversal := by
  unfold Obligations.SubkeyReversal
  intro s key hlen hfits hkey
  exact ⟨_, _, exec_keyexp_written .encrypt hlen hfits hkey, exec_keyexp_written .decrypt hlen hfits hkey,
    keySchedule_decrypt_reversed key⟩

/-! ## TAU, LKEY and TKEY -/

/-- Settles O10: TAU is a primitive command whose result is τ(ARG); the values are evaluated. -/
theorem tauSubstitutesBytes : Obligations.TauSubstitutesBytes := by
  unfold Obligations.TauSubstitutesBytes
  exact ⟨rfl, exec_primitive (i := .tau) rfl, tau_zero, tau_allOnes, by decide⟩

/-- Settles O11: LKEY is a primitive command whose result is L′(ARG); the values are evaluated. -/
theorem lkeyDiffusesArg : Obligations.LkeyDiffusesArg := by
  unfold Obligations.LkeyDiffusesArg
  exact ⟨rfl, exec_primitive (i := .lkey) rfl, by decide, by decide, by decide, by decide, by decide⟩

/-- Settles O12: TKEY is a primitive command whose result is L′(τ(ARG)); the values are evaluated. -/
theorem tkeyMixesArg : Obligations.TkeyMixesArg := by
  unfold Obligations.TkeyMixesArg
  exact ⟨rfl, exec_primitive (i := .tkey) rfl, by decide, by decide, by decide⟩

end Sys2Proof.Machine

/-!
SUPPORT. The round function (42_round_function.md): L is a sum of rotations (R200), the two forms agree (R203), and LDIF, TSLOW,
TFAST and TBL give their primitive's result (R210-R213).
-/

namespace Sys2Proof.Machine

/-! ## L and the two forms -/

/-- Settles O47: each of the five rotations is linear and commutes with every rotation. -/
theorem lroundIsLinear : Obligations.LroundIsLinear := by
  unfold Obligations.LroundIsLinear
  exact ⟨fun _ => rfl, lRound_xor, fun w n _ => lRound_rotr w n⟩

/-- Settles O42: τ's result is the sum of its four bytes, and the tables hold L of each. -/
theorem fastFormEqualsSlowForm : Obligations.FastFormEqualsSlowForm := by
  unfold Obligations.FastFormEqualsSlowForm
  exact tFast_eq_tSlow

theorem tSlow_zero : tSlow 0x00000000 = 0x5B5B5B5B := by decide

theorem tSlow_example : tSlow 0x01234567 = 0x6EF180C9 := by decide

/-! ## LDIF, TSLOW and TFAST -/

/-- Settles O13: LDIF is a primitive command whose result is L(ARG); the values are evaluated. -/
theorem ldifDiffusesArg : Obligations.LdifDiffusesArg := by
  unfold Obligations.LdifDiffusesArg
  exact ⟨rfl, exec_primitive (i := .ldif) rfl, by decide, by decide, by decide, by decide, by decide⟩

/-- Settles O14: TSLOW is a primitive command whose result is L(τ(ARG)); the values are evaluated. -/
theorem tslowMixesArg : Obligations.TslowMixesArg := by
  unfold Obligations.TslowMixesArg
  exact ⟨rfl, exec_primitive (i := .tslow) rfl, tSlow_zero, by decide, by decide, by decide, by decide, tSlow_example⟩

/-- The results of the two commands are the two forms of one function (R203). -/
theorem exec_tfast_eq_exec_tslow (s : State) : exec .tfast s = exec .tslow s := by
  have hresult : primitiveResult s .tfast = primitiveResult s .tslow := tFast_eq_tSlow s.arg
  rw [exec_primitive rfl, exec_primitive rfl, hresult]

/-- Settles O15: TFAST is a primitive command, and TSLOW's values are its values; the table entries are evaluated. -/
theorem tfastMixesArg : Obligations.TfastMixesArg := by
  unfold Obligations.TfastMixesArg
  exact ⟨rfl, exec_primitive (i := .tfast) rfl, exec_tfast_eq_exec_tslow, (tFast_eq_tSlow _).trans tSlow_zero,
    by decide, by decide, by decide, by decide, (tFast_eq_tSlow _).trans tSlow_example⟩

/-! ## TBL -/

/-- TBL's result depends on ARG alone. -/
theorem primitiveResult_tbl_of_arg {s : State} {a v : Word} (hv : mixTable (a.extractLsb' 8 2) (a.extractLsb' 0 8) = v)
    (ha : s.arg = a) : primitiveResult s .tbl = v := by
  subst ha
  exact hv

/-- Settles O16: TBL is a primitive command whose result is the table entry that ARG[9:0] selects; the five entries are
evaluated. -/
theorem tblReadsMixingTable : Obligations.TblReadsMixingTable := by
  unfold Obligations.TblReadsMixingTable
  refine ⟨rfl, exec_primitive (i := .tbl) rfl, fun s => ⟨_, exec_primitive rfl s, ?_⟩⟩
  exact ⟨primitiveResult_tbl_of_arg (by decide), primitiveResult_tbl_of_arg (by decide), primitiveResult_tbl_of_arg (by decide),
    primitiveResult_tbl_of_arg (by decide), primitiveResult_tbl_of_arg (by decide)⟩

end Sys2Proof.Machine

/-!
SUPPORT. The block transform (43_block_transform.md): the rounds as the sequence of their states (R231), as the standard's
sequence form (R235), and run backwards under reversed subkeys (R236); what CRYPT leaves in BUF (R240), and that it depends on
the input bytes and RK alone (R237).
-/

namespace Sys2Proof.Machine

/-! ## The rounds as a sequence of states -/

/-- The block states X of the rounds under `rk` (R231), made total: there is no round after the 32nd. -/
def roundStates (rk : Vector Word 32) (x : Vector Word 4) (n : Nat) : Vector Word 4 :=
  roundsUpTo rk x (min n 32) (Nat.min_le_right n 32)

theorem roundStates_succ (rk : Vector Word 32) (x : Vector Word 4) (i : Fin 32) :
    roundStates rk x (i + 1) = roundStep i rk[i] (roundStates rk x i) := by
  simp only [roundStates, Nat.min_eq_left i.isLt, Nat.min_eq_left i.isLt.le]
  exact roundsUpTo_succ rk x i i.isLt

theorem blockWords_getElem (block : Vector Byte 16) (j : Fin 4) : (blockWords block)[j] = be32 block (4 * j) := by
  fin_cases j <;> rfl

/-- The round's form written out, as `RoundSequence` has it (R201, R202, R232). -/
theorem roundForm_eq_ite (i : Nat) (a : Word) :
    roundForm i a =
      if i < 4 ∨ 28 ≤ i then lRound (tau a)
      else mixTable 0 (byte0 a) ^^^ mixTable 1 (byte1 a) ^^^ mixTable 2 (byte2 a) ^^^ mixTable 3 (byte3 a) := by
  unfold roundForm
  split <;> rfl

theorem roundSequence_roundStates (rk : Vector Word 32) (block : Vector Byte 16) :
    RoundSequence rk block (roundStates rk (blockWords block)) := by
  refine ⟨blockWords_getElem block, fun i => ⟨fun j hj => ?_, ?_⟩⟩
  · rw [roundStates_succ, Fin.getElem_fin, roundStep_getElem, if_neg hj.symm, Fin.getElem_fin]
  · rw [roundStates_succ, roundStep_getElem, if_pos rfl, roundForm_eq_ite]

theorem outputBlock_eq_wordsToBlock (x : Vector Word 4) : outputBlock x = wordsToBlock x[3] x[2] x[1] x[0] := rfl

theorem blockTransform_eq_roundStates (rk : Vector Word 32) (block : Vector Byte 16) :
    blockTransform rk block = outputBlock (roundStates rk (blockWords block) 32) :=
  blockTransform_eq rk block

/-! ## CRYPT over written input bytes -/

/-- Settles O18: the states of the rounds are `roundStates`, and CRYPT's `MemWrite` puts the output of the last one at
OUT_OFF and touches no other byte. -/
theorem cryptWritesTransformedBlock : Obligations.CryptWritesTransformedBlock := by
  unfold Obligations.CryptWritesTransformedBlock
  intro s block hkv hin hout hblock
  refine ⟨roundStates s.rk (blockWords block), _, roundSequence_roundStates s.rk block,
    exec_crypt_written hkv hin hout hblock, rfl, ?_, fun a ha => memWrite_read_outside _ ha⟩
  rw [← outputBlock_eq_wordsToBlock, ← blockTransform_eq_roundStates]
  exact memWrite_read _ _ _

/-- CRYPT leaves the transform of its input bytes under RK at OUT_OFF. -/
theorem exec_crypt_output {s : State} {block : Vector Byte 16} (h : BlockReady s block) :
    ∃ t, exec .crypt s = .next t ∧ HoldsBytes t s.outOff.toNat (blockTransform s.rk block) := by
  obtain ⟨hkv, hin, hout, hblock⟩ := h
  exact ⟨_, exec_crypt_written hkv hin hout hblock, memWrite_read _ _ _⟩

/-- Settles O52: each output block is the transform of the input bytes under RK, and both are the same in the two states. -/
theorem cryptOutputDependsOnInputAndRk : Obligations.CryptOutputDependsOnInputAndRk := by
  unfold Obligations.CryptOutputDependsOnInputAndRk
  intro s u block hkvs hkvu hins houts hinu houtu hblocks hblocku hrk
  obtain ⟨t, hexect, houtt⟩ := exec_crypt_output ⟨hkvs, hins, houts, hblocks⟩
  obtain ⟨v, hexecv, houtv⟩ := exec_crypt_output ⟨hkvu, hinu, houtu, hblocku⟩
  exact ⟨t, v, hexect, hexecv, blockTransform s.rk block, houtt, hrk ▸ houtv⟩

/-! ## The standard's sequence form -/

theorem slide_take_succ (rk : Vector Word 32) (x : Vector Word 4) {n : Nat} (hn : n < 32) :
    slide (rk.toList.take (n + 1)) x = slideStep (slide (rk.toList.take n) x) rk[n] := by
  rw [List.take_succ_eq_append_getElem (by simpa using hn), slide, List.foldl_concat, slide, Vector.getElem_toList]

section
variable {rk : Vector Word 32} {x : Vector Word 4} {Y : Nat → Word} {n : Nat} (hstart : ∀ j : Fin 4, Y j = x[j])
    (hstep : ∀ i : Fin 32, Y (i + 4) = nextWord rk[i] (Y i) (Y (i + 1)) (Y (i + 2)) (Y (i + 3))) (hn : n ≤ 32)
include hstart hstep hn

/-- The window of the last four words after `n` rounds is Y[n..n+3] of the sequence form (R235). -/
theorem slide_take_eq_sequence :
    slide (rk.toList.take n) x = #v[Y n, Y (n + 1), Y (n + 2), Y (n + 3)] := by
  induction n with
  | zero =>
    ext j hj : 1
    match j, hj with
    | 0, _ => exact (hstart 0).symm
    | 1, _ => exact (hstart 1).symm
    | 2, _ => exact (hstart 2).symm
    | 3, _ => exact (hstart 3).symm
  | succ n ih =>
    rw [slide_take_succ rk x hn, ih (by omega)]
    exact congrArg (#v[Y (n + 1), Y (n + 2), Y (n + 3), ·]) (hstep ⟨n, hn⟩).symm

/-- Array word `(n + j) mod 4` after `n` rounds holds Y[n+j]. -/
theorem roundsUpTo_getElem_sequence {j : Nat} (hj : j < 4) : (roundsUpTo rk x n hn)[(n + j) % 4] = Y (n + j) := by
  rw [roundsUpTo_getElem rk x hn hj]
  simp only [slide_take_eq_sequence hstart hstep hn]
  interval_cases j <;> rfl

end

/-- Settles O49: in the array each round overwrites the oldest of the last four words of the sequence. -/
theorem transformEqualsSequenceForm : Obligations.TransformEqualsSequenceForm := by
  unfold Obligations.TransformEqualsSequenceForm
  intro rk block Y hstart hstep
  have hword : ∀ {n : Nat} (hn : n ≤ 32) {j : Nat} (hj : j < 4),
      (roundsUpTo rk (blockWords block) n hn)[(n + j) % 4] = Y (n + j) :=
    roundsUpTo_getElem_sequence (fun j => (hstart j).trans (blockWords_getElem block j).symm) hstep
  refine ⟨fun n hn => ?_, ?_⟩
  · simpa only [show (n + 1 + 3) % 4 = n % 4 by omega] using hword hn (j := 3) (by decide)
  · have hlast : ∀ j (hj : j < 4), (roundsUpTo rk (blockWords block) 32 (Nat.le_refl 32))[j] = Y (32 + j) := by
      intro j hj
      simpa only [show (32 + j) % 4 = j by omega] using hword (Nat.le_refl 32) hj
    rw [blockTransform_eq, outputBlock_eq_wordsToBlock, hlast 3, hlast 2, hlast 1, hlast 0]

/-! ## Reversed subkeys -/

/-- A round taken from the reversed window under the same subkey is undone: the word it made is the one it replaces, and the
other three enter the round by their sum. -/
theorem slideStep_reverse (w : Vector Word 4) (key : Word) : slideStep (slideStep w key).reverse key = w.reverse := by
  have hundo : nextWord key (nextWord key w[0] w[1] w[2] w[3]) w[3] w[2] w[1] = w[0] := by
    rw [nextWord, nextWord, show w[3] ^^^ w[2] ^^^ w[1] = w[1] ^^^ w[2] ^^^ w[3] by ac_rfl, BitVec.xor_assoc,
      BitVec.xor_self, BitVec.xor_zero]
  ext j hj : 1
  match j, hj with
  | 0, _ => simp [slideStep]
  | 1, _ => simp [slideStep]
  | 2, _ => simp [slideStep]
  | 3, _ => simpa [slideStep] using hundo

/-- The rounds are undone from the last to the first. -/
theorem slide_reverse (keys : List Word) (w : Vector Word 4) : slide keys.reverse (slide keys w).reverse = w.reverse := by
  induction keys generalizing w with
  | nil => rfl
  | cons key keys ih =>
    calc slide (key :: keys).reverse (slide (key :: keys) w).reverse
      _ = slideStep (slide keys.reverse (slide keys (slideStep w key)).reverse) key := by
        rw [List.reverse_cons, slide, List.foldl_concat]; rfl
      _ = w.reverse := by rw [ih, slideStep_reverse]

theorem blockTransform_reverse (rk : Vector Word 32) (block : Vector Byte 16) :
    blockTransform rk.reverse (blockTransform rk block) = block := by
  apply blockWords_injective
  rw [blockWords_blockTransform, blockWords_blockTransform, slideBlock, slideBlock, Vector.toList_reverse, slide_reverse,
    Vector.reverse_reverse]

/-- Settles O50: on the words of the block, the rounds under the reversed subkeys undo the rounds one by one. -/
theorem reversedSubkeysInvert : Obligations.ReversedSubkeysInvert := by
  unfold Obligations.ReversedSubkeysInvert
  exact blockTransform_reverse

/-! ## Encryption and decryption under one key -/

theorem keySchedule_decrypt_eq_reverse (key : Vector Byte 16) :
    keySchedule key .decrypt = (keySchedule key .encrypt).reverse := by
  ext i hi : 1
  rw [Vector.getElem_reverse]
  exact keySchedule_decrypt_reversed key ⟨i, hi⟩

/-- Decryption undoes encryption (R236). -/
theorem blockTransform_decrypt_encrypt (key block : Vector Byte 16) :
    blockTransform (keySchedule key .decrypt) (blockTransform (keySchedule key .encrypt) block) = block := by
  rw [keySchedule_decrypt_eq_reverse, blockTransform_reverse]

theorem exec_keyexp_ready {s : State} {key : Vector Byte 16} (d : Direction) (h : KeyReady s key) :
    exec (.keyexp d) s = .next (s.installKey (keySchedule key d) d).succeed := by
  obtain ⟨hlen, hfits, hkey⟩ := h
  exact exec_keyexp_written d hlen hfits hkey

/-- Settles O56: each CRYPT leaves the transform under the schedule of its direction, and the one undoes the other. -/
theorem cryptRoundTrip : Obligations.CryptRoundTrip := by
  unfold Obligations.CryptRoundTrip
  intro key block s u hs hu
  refine ⟨_, _, exec_keyexp_ready .encrypt hs, exec_keyexp_ready .decrypt hu, fun v hv hblock => ?_⟩
  obtain ⟨v1, hexecv, hcipher⟩ := exec_crypt_output hblock
  refine ⟨v1, _, hexecv, hcipher, fun w hw hready => ?_⟩
  obtain ⟨w1, hexecw, hplain⟩ := exec_crypt_output hready
  have hvrk : v.rk = keySchedule key .encrypt := hv
  have hwrk : w.rk = keySchedule key .decrypt := hw
  rw [hvrk, hwrk, blockTransform_decrypt_encrypt] at hplain
  exact ⟨w1, hexecw, hplain⟩

/-- A `MemWrite` keeps what BUF holds in a window that does not overlap its own. -/
theorem holdsBytes_memWrite_of_disjoint {s : State} {m n a b : Nat} {v : Vector Byte m} (w : Vector Byte n)
    (hdisjoint : a + m ≤ b ∨ b + n ≤ a) (h : HoldsBytes s a v) : HoldsBytes (s.memWrite b w) a v := by
  intro k
  rw [memWrite_read_outside w (by omega)]
  exact h k

/-- The state after KEYEXP with direction `d` of `key` and CRYPT in place of `block`. -/
def keyedAndTransformed (s : State) (d : Direction) (key block : Vector Byte 16) : State :=
  ((s.installKey (keySchedule key d) d).succeed.memWrite s.inOff.toNat (blockTransform (keySchedule key d) block)).succeed

theorem keyedAndTransformed_holdsBytes (s : State) (key block : Vector Byte 16) (d : Direction) :
    HoldsBytes (keyedAndTransformed s d key block) s.inOff.toNat (blockTransform (keySchedule key d) block) :=
  memWrite_read _ _ _

section
variable {s : State} {key block : Vector Byte 16} (d : Direction)

theorem exec_keyexp_crypt_inPlace (hkey : KeyReady s key) (hin : Fits s s.inOff) (hinPlace : s.outOff = s.inOff)
    (hblock : HoldsBytes s s.inOff.toNat block) :
    ∃ t, exec (.keyexp d) s = .next t ∧ t.ecode = .ok ∧ exec .crypt t = .next (keyedAndTransformed s d key block) := by
  have hout : Fits s s.outOff := hinPlace ▸ hin
  have hready : BlockReady (s.installKey (keySchedule key d) d).succeed block := ⟨rfl, hin, hout, hblock⟩
  exact ⟨_, exec_keyexp_ready d hkey, rfl, exec_crypt_inPlace hready hinPlace⟩

theorem keyedAndTransformed_keyReady (hkey : KeyReady s key)
    (hdisjoint : s.keyOff.toNat + 16 ≤ s.inOff.toNat ∨ s.inOff.toNat + 16 ≤ s.keyOff.toNat) :
    KeyReady (keyedAndTransformed s d key block) key := by
  obtain ⟨hlen, hfits, hbytes⟩ := hkey
  exact ⟨hlen, hfits, holdsBytes_memWrite_of_disjoint _ hdisjoint hbytes⟩

end

/-- Settles O51: KEYEXP.E and CRYPT leave the key bytes for KEYEXP.D and their output for the second CRYPT, which decrypts
it. -/
theorem encryptThenDecryptRestoresBlock : Obligations.EncryptThenDecryptRestoresBlock := by
  unfold Obligations.EncryptThenDecryptRestoresBlock
  intro s key block hlen hkeyFits hinFits hinPlace hdisjoint hkey hblock
  have hready : KeyReady s key := ⟨hlen, hkeyFits, hkey⟩
  obtain ⟨s1, hkeyexpE, hokE, hencrypt⟩ := exec_keyexp_crypt_inPlace .encrypt hready hinFits hinPlace hblock
  obtain ⟨s3, hkeyexpD, hokD, hdecrypt⟩ := exec_keyexp_crypt_inPlace .decrypt
    (keyedAndTransformed_keyReady .encrypt hready hdisjoint) hinFits hinPlace
    (keyedAndTransformed_holdsBytes s key block .encrypt)
  refine ⟨s1, _, s3, _, hkeyexpE, hencrypt, hkeyexpD, hdecrypt, hokE, rfl, hokD, rfl, ?_, rfl⟩
  have hplain := keyedAndTransformed_holdsBytes (keyedAndTransformed s .encrypt key block) key
    (blockTransform (keySchedule key .encrypt) block) .decrypt
  rw [blockTransform_decrypt_encrypt] at hplain
  exact hplain

end Sys2Proof.Machine

/-!
SUPPORT. Command issue (44_command_control.md R260, R261) and the control commands NOP, KCLR and ECLR (R262-R264): what each
writes, and what STATUS reads as after it.
-/

namespace Sys2Proof.Machine

/-! ## Command issue -/

theorem issueCommand_of_decode {c : Word} {i : Instr} (s : State) (h : decode c = .ok i) : issueCommand c s = exec i s := by
  unfold issueCommand
  rw [h]

/-- A step whose event is a CMD write of a command's word performs the command, with that event taken off (R260). -/
theorem step_of_pending_cmdWrite {s : State} {rest : List HostEvent} {c : Word} {i : Instr}
    (hp : s.pending = cmdWrite c :: rest) (hc : decode c = .ok i) :
    step s = onNext (exec i { s with pending := rest }) (fun t => t.respond .ok) := by
  calc step s = hostEvent (cmdWrite c) { s with pending := rest } := by unfold step takeEvent; rw [hp]
    _ = onNext (issueCommand c { s with pending := rest }) (fun t => t.respond .ok) := hostEvent_cmdWrite c _
    _ = onNext (exec i { s with pending := rest }) (fun t => t.respond .ok) := by rw [issueCommand_of_decode _ hc]

/-- The opcode table's reading of a number is the decoding of the word that `withFetchWord` has the host write. -/
theorem decode_of_decodeTableWord {nbits w : Nat} {i : Instr} (h : decodeTableWord nbits w = some i) :
    decode (BitVec.ofNat 32 (w % 2 ^ nbits)) = .ok i := by
  simp only [decodeTableWord] at h
  split at h
  · cases hd : decode (BitVec.ofNat 32 (w % 2 ^ nbits)) with
    | ok j => simpa [hd, Except.toOption] using h
    | error e => simp [hd, Except.toOption] at h
  · cases h

/-- Settles O4: the write is the event taken, and its word's command is performed; `withFetchWord` places such a write. -/
theorem stepRunsDecodedCommand : Obligations.StepRunsDecodedCommand := by
  unfold Obligations.StepRunsDecodedCommand
  refine ⟨fun s rest c i hp hc => step_of_pending_cmdWrite hp hc, fun s nbits w i _ hw => ?_⟩
  exact step_of_pending_cmdWrite (s := s.withFetchWord nbits w) rfl (decode_of_decodeTableWord hw)

/-! ## STATUS after the error record changes -/

/-- Success clears the ECODE field of STATUS and keeps the rest (10_state.md R44). -/
theorem statusWord_succeed (s : State) : s.succeed.statusWord = s.statusWord &&& 0x0000000F := by
  have hmask : ∀ k < 32, (0x0000000F : Word).getLsbD k = decide (k < 4) := by decide
  refine BitVec.eq_of_getLsbD_eq fun k hk => ?_
  rw [BitVec.getLsbD_and, hmask k hk, statusWord_getLsbD, statusWord_getLsbD]
  match k with
  | 0 | 1 | 2 | 3 => exact (Bool.and_true _).symm
  | j + 4 => simp [ErrorCode.bits]

/-- Clearing the error record clears ECODE and ERR in STATUS and keeps the rest (60_exceptions.md R288). -/
theorem statusWord_clearErrors (s : State) : s.clearErrors.statusWord = s.statusWord &&& 0x00000007 := by
  have hmask : ∀ k < 32, (0x00000007 : Word).getLsbD k = decide (k < 3) := by decide
  refine BitVec.eq_of_getLsbD_eq fun k hk => ?_
  rw [BitVec.getLsbD_and, hmask k hk, statusWord_getLsbD, statusWord_getLsbD]
  match k with
  | 0 | 1 | 2 => exact (Bool.and_true _).symm
  | 3 => exact (Bool.and_false _).symm
  | j + 4 => simp [ErrorCode.bits]

/-! ## NOP, KCLR and ECLR -/

theorem exec_nop (s : State) : exec .nop s = .next s.succeed := rfl

theorem exec_kclr (s : State) : exec .kclr s = .next s.clearKey.succeed := rfl

theorem exec_eclr (s : State) : exec .eclr s = .next s.clearErrors := rfl

/-- CRYPT without a key records NO_KEY alone. -/
theorem exec_crypt_of_no_key {s : State} (h : s.kv = false) : exec .crypt s = .next (s.raiseError .noKey) := by
  rcases exec_crypt_cases s with ⟨_, hexec⟩ | ⟨hkv, _⟩ | ⟨hkv, _⟩ | ⟨hkv, _⟩
  · exact hexec
  all_goals simp [h] at hkv

/-- Settles O7: NOP's effect is that of success, and STATUS loses its ECODE field. -/
theorem nopWritesOnlyEcode : Obligations.NopWritesOnlyEcode := by
  unfold Obligations.NopWritesOnlyEcode
  refine ⟨rfl, exec_nop, fun s hs => ⟨s.succeed, exec_nop s, ?_⟩⟩
  rw [statusWord_succeed, hs]
  decide

/-- Settles O8: KCLR clears the key and succeeds, and leaves KV = 0, so CRYPT fails its first check. -/
theorem kclrEndsKeyLifetime : Obligations.KclrEndsKeyLifetime := by
  unfold Obligations.KclrEndsKeyLifetime
  refine ⟨rfl, exec_kclr, fun s t h => ?_⟩
  rw [exec_kclr] at h
  cases h
  exact exec_crypt_of_no_key rfl

/-- Settles O9: ECLR clears the error record, and STATUS loses its ECODE and ERR fields. -/
theorem eclrClearsErrorRecord : Obligations.EclrClearsErrorRecord := by
  unfold Obligations.EclrClearsErrorRecord
  refine ⟨rfl, exec_eclr, fun s hs => ⟨s.clearErrors, exec_eclr s, ?_⟩⟩
  rw [statusWord_clearErrors, hs]
  decide

end Sys2Proof.Machine

/-!
SUPPORT. Errors and completion (60_exceptions.md): every step answers a next state (R291, R295), and a write to CMD answers ok
(R284); a command that fails changes the error record alone (R282), with the first error in the order of R283; what clears the
error record (R288); the model fault mark is never cleared (R285).
-/

namespace Sys2Proof.Machine

variable {s t u : State} {c : Word} {i : Instr}

/-! ## The step of an idle core and of an event -/

theorem step_of_pending_nil (h : s.pending = []) : step s = .next s := by
  unfold step takeEvent
  rw [h]

theorem step_of_pending_cons {e : HostEvent} {rest : List HostEvent} (h : s.pending = e :: rest) :
    step s = hostEvent e { s with pending := rest } := by
  unfold step takeEvent
  rw [h]

/-- Settles O5: with no event to take, a step answers the state it finds. -/
theorem idleCoreHoldsState : Obligations.IdleCoreHoldsState := by
  unfold Obligations.IdleCoreHoldsState
  exact fun _ => step_of_pending_nil

/-! ## Every step completes -/

/-- A command word, legal or not, answers a next state. -/
theorem issueCommand_next (c : Word) (s : State) : ∃ t, issueCommand c s = .next t := by
  unfold issueCommand
  split
  · exact exec_next _ s
  · exact ⟨_, rfl⟩

/-- A write to CMD answers ok once its command is done (44_command_control.md R260). -/
theorem hostEvent_cmdWrite_of_issue (h : issueCommand c s = .next u) :
    hostEvent (cmdWrite c) s = .next (u.respond .ok) := by
  rw [hostEvent_cmdWrite, h]
  rfl

theorem busWrite_next (s : State) (o : Offset) (w : Width) (d : Word) : ∃ t, s.busWrite o w d = .next t := by
  rcases busWrite_cases s o w d with ⟨_, hwrite⟩ | ⟨_, _, hwrite⟩ | ⟨_, _, _, hwrite⟩ | ⟨_, _, _, hwrite⟩
  · exact ⟨_, hwrite⟩
  · obtain ⟨u, hissue⟩ := issueCommand_next d s
    rw [hissue] at hwrite
    exact ⟨u.respond .ok, hwrite⟩
  · exact ⟨_, hwrite⟩
  · exact ⟨_, hwrite⟩

theorem hostEvent_next (e : HostEvent) (s : State) : ∃ t, hostEvent e s = .next t :=
  match e with
  | .bus (.read _ _) => ⟨_, rfl⟩
  | .bus (.write o w d) => busWrite_next s o w d
  | .reset => ⟨_, rfl⟩
  | .resetDuring _ => ⟨_, rfl⟩

/-- Settles O6: an idle core holds its state, and every event, a command's write too, has a next state. -/
theorem everyStepCompletes : Obligations.EveryStepCompletes := by
  unfold Obligations.EveryStepCompletes
  intro s
  cases hp : s.pending with
  | nil => exact ⟨s, step_of_pending_nil hp⟩
  | cons e rest =>
    rw [step_of_pending_cons hp]
    exact hostEvent_next e _

/-- Settles O35: the command of the write completes, whatever it is, and leaves the host's side for the answer. -/
theorem cmdWriteAlwaysAnswersOk : Obligations.CmdWriteAlwaysAnswersOk := by
  unfold Obligations.CmdWriteAlwaysAnswersOk
  intro s c rest hp
  obtain ⟨u, hissue⟩ := issueCommand_next c { s with pending := rest }
  obtain ⟨hpending, hresponses⟩ := issueCommand_keeps_host hissue
  refine ⟨u.respond .ok, ?_, by rw [respond_responses, hresponses], hpending⟩
  rw [step_of_pending_cons hp, hostEvent_cmdWrite_of_issue hissue]

/-! ## Commands that fail -/

/-- A command that ends with a nonzero ECODE has raised one of its errors. -/
theorem exec_failed (h : exec i s = .next t) (hfail : t.ecode ≠ .ok) :
    ∃ code, raises i s code ∧ t = withError s code := by
  rcases exec_cases h with ⟨code, hraises, _, rfl⟩ | ⟨_, rfl⟩ | ⟨_, rfl⟩ | ⟨_, rfl⟩ | ⟨_, rfl⟩ | ⟨_, _, _, _, rfl⟩ |
    ⟨_, _, _, _, rfl⟩
  case inl => exact ⟨code, hraises, rfl⟩
  all_goals exact absurd rfl hfail

theorem issueCommand_failed (h : issueCommand c s = .next t) (hfail : t.ecode ≠ .ok) : t = withError s t.ecode := by
  rcases issueCommand_cases h with ⟨_, _, hexec⟩ | rfl
  · obtain ⟨_, _, rfl⟩ := exec_failed hexec hfail
    rfl
  · rfl

/-- Settles O22: an illegal word raises ILLEGAL_CMD alone, and a command's errors change the error record alone. -/
theorem failedCommandChangesOnlyErrorRecord : Obligations.FailedCommandChangesOnlyErrorRecord := by
  unfold Obligations.FailedCommandChangesOnlyErrorRecord
  exact fun _ _ _ => issueCommand_failed

/-! ## The order of the checks -/

theorem windowFits_eq_false_iff (s : State) (off : Word) : s.windowFits off = false ↔ ¬ Fits s off := by
  rw [Bool.eq_false_iff, Ne, windowFits_iff, Fits]

/-- KEYEXP checks the key length first. -/
theorem exec_keyexp_of_bad_keyLen (d : Direction) (hlen : s.keyLen ≠ 16) :
    exec (.keyexp d) s = .next (withError s .keyLength) := by
  rcases exec_keyexp_cases d s with ⟨_, hexec⟩ | ⟨h, _⟩ | ⟨h, _⟩
  · exact hexec
  all_goals exact absurd h hlen

/-- KEYEXP checks the key's window second. -/
theorem exec_keyexp_of_bad_window (d : Direction) (hlen : s.keyLen = 16) (hkey : ¬ Fits s s.keyOff) :
    exec (.keyexp d) s = .next (withError s .keyBounds) := by
  rcases exec_keyexp_cases d s with ⟨h, _⟩ | ⟨_, _, hexec⟩ | ⟨_, h, _⟩
  · exact absurd hlen h
  · exact hexec
  · exact absurd ((windowFits_iff s s.keyOff).1 h) hkey

/-- CRYPT checks the input window second, after the key (`exec_crypt_of_no_key`). -/
theorem exec_crypt_of_bad_input (hkv : s.kv = true) (hin : ¬ Fits s s.inOff) :
    exec .crypt s = .next (withError s .inBounds) := by
  rcases exec_crypt_cases s with ⟨h, _⟩ | ⟨_, _, hexec⟩ | ⟨_, h, _⟩ | ⟨_, h, _⟩
  · simp [hkv] at h
  · exact hexec
  all_goals exact absurd ((windowFits_iff s s.inOff).1 h) hin

/-- CRYPT checks the output window last. -/
theorem exec_crypt_of_bad_output (hkv : s.kv = true) (hin : Fits s s.inOff) (hout : ¬ Fits s s.outOff) :
    exec .crypt s = .next (withError s .outBounds) := by
  rcases exec_crypt_cases s with ⟨h, _⟩ | ⟨_, h, _⟩ | ⟨_, _, _, hexec⟩ | ⟨_, _, h, _⟩
  · simp [hkv] at h
  · exact absurd hin ((windowFits_eq_false_iff s s.inOff).1 h)
  · exact hexec
  · exact absurd ((windowFits_iff s s.outOff).1 h) hout

/-- Only KEYEXP and CRYPT raise errors. -/
theorem keyexp_or_crypt_of_raises {code : ErrorCode} (h : raises i s code) : (∃ d, i = .keyexp d) ∨ i = .crypt := by
  cases i
  case keyexp d => exact .inl ⟨d, rfl⟩
  case crypt => exact .inr rfl
  all_goals exact h.elim

/-- A command other than KEYEXP and CRYPT succeeds, and success sets no ERR. -/
theorem exec_succeeds (hkeyexp : ∀ d, i ≠ .keyexp d) (hcrypt : i ≠ .crypt) (h : exec i s = .next t) :
    t.ecode = .ok ∧ (s.err = false → t.err = false) := by
  have hok : t.ecode = .ok := by
    by_contra hfail
    obtain ⟨_, hraises, _⟩ := exec_failed h hfail
    rcases keyexp_or_crypt_of_raises hraises with ⟨d, hi⟩ | hi
    · exact hkeyexp d hi
    · exact hcrypt hi
  refine ⟨hok, fun hs => ?_⟩
  by_cases hi : i = .eclr
  · subst hi
    rw [exec_eclr] at h
    cases h
    rfl
  · rw [exec_success_keeps_err h hi hok, hs]

/-- Settles O19: each check is reached when the ones before it pass, and a check that fails raises its error alone. -/
theorem errorsInPriorityOrder : Obligations.ErrorsInPriorityOrder := by
  unfold Obligations.ErrorsInPriorityOrder
  refine ⟨fun _ => issueCommand_of_no_command, fun d _ => exec_keyexp_of_bad_keyLen d, fun d _ => exec_keyexp_of_bad_window d,
    fun _ => exec_crypt_of_no_key, fun _ => exec_crypt_of_bad_input, fun _ => exec_crypt_of_bad_output,
    fun i s hkeyexp hcrypt => ?_⟩
  obtain ⟨t, h⟩ := exec_next i s
  exact ⟨t, h, exec_succeeds hkeyexp hcrypt h⟩

/-! ## What clears the error record -/

theorem err_of_issueCommand_failed (h : issueCommand c s = .next t) (hfail : t.ecode ≠ .ok) : t.err = true :=
  congrArg State.err (issueCommand_failed h hfail)

/-- Of all commands only ECLR takes ERR from 1 to 0: an error sets ERR, and any other success keeps it. -/
theorem eclr_of_exec_clears_err (h : exec i s = .next t) (hs : s.err = true) (ht : t.err = false) : i = .eclr := by
  by_contra hi
  by_cases hok : t.ecode = .ok
  · simp [exec_success_keeps_err h hi hok, hs] at ht
  · obtain ⟨_, _, rfl⟩ := exec_failed h hok
    simp [withError] at ht

/-- A reset, between transactions or during a command, clears the error record. -/
theorem step_reset_clears_errors (h : step s = .next t) (hreset : NextReset s) : t.err = false ∧ t.ecode = .ok := by
  obtain ⟨rest, hp | ⟨c, hp⟩⟩ := hreset
  all_goals
    rw [step_of_pending_cons hp] at h
    cases h
    exact ⟨rfl, rfl⟩

@[simp] theorem writeCtl_err (s : State) (r : CtlReg) (w : Word) : (s.writeCtl r w).err = s.err := by cases r <;> rfl

/-- A step that takes ERR from 1 to 0 took a write of ECLR's word or a reset: no other event reaches ERR. -/
theorem step_clears_err (h : step s = .next t) (hs : s.err = true) (ht : t.err = false) :
    NextCommand s .eclr ∨ NextReset s := by
  rcases step_cases h with ⟨_, rfl⟩ | ⟨e, rest, hp, hevent⟩
  · simp [hs] at ht
  rcases hevent with ⟨rfl, _⟩ | ⟨c, rfl, _⟩ | ⟨_, _, _, _, rfl⟩ | ⟨_, _, _, _, _, _, _, rfl⟩ | ⟨c, u, rfl, hissue, rfl⟩ |
    ⟨_, _, _, _, rfl⟩ | ⟨_, _, _, _, _, _, _, rfl⟩
  · exact .inr ⟨rest, .inl hp⟩
  · exact .inr ⟨rest, .inr ⟨c, hp⟩⟩
  · simp [hs] at ht
  · simp [hs] at ht
  · rcases issueCommand_cases hissue with ⟨i, rfl, hexec⟩ | rfl
    · obtain rfl := eclr_of_exec_clears_err hexec hs ht
      exact .inl ⟨rest, hp⟩
    · simp at ht
  · simp [hs] at ht
  · simp [hs] at ht

/-- Settles O23: errors set ERR, successes other than ECLR's keep it, and ECLR and reset alone clear it. -/
theorem errorRecordIsSticky : Obligations.ErrorRecordIsSticky := by
  unfold Obligations.ErrorRecordIsSticky
  refine ⟨fun _ _ _ => err_of_issueCommand_failed, fun _ _ _ h hok hi => exec_success_keeps_err h hi hok, fun s t h => ?_,
    fun _ _ => step_reset_clears_errors, fun _ _ => step_clears_err⟩
  rw [exec_eclr] at h
  cases h
  exact ⟨rfl, rfl⟩

/-! ## The model fault mark is never cleared -/

theorem afterRead_keeps_mark {a n : Nat} (hs : s.modelFault = true) : (s.afterRead a n).modelFault = true := by
  rcases afterRead_cases s a n with ⟨_, hread⟩ | ⟨_, hread⟩
  · rwa [hread]
  · rw [hread]

/-- No command clears the mark: KEYEXP and CRYPT, the two that read BUF, can only set it. -/
theorem exec_keeps_mark (h : exec i s = .next t) (hs : s.modelFault = true) : t.modelFault = true := by
  rcases exec_cases h with ⟨_, _, _, rfl⟩ | ⟨_, rfl⟩ | ⟨_, rfl⟩ | ⟨_, rfl⟩ | ⟨_, rfl⟩ | ⟨_, _, _, _, rfl⟩ | ⟨_, _, _, _, rfl⟩
  case inr.inr.inr.inr.inr.inl => exact afterRead_keeps_mark hs
  case inr.inr.inr.inr.inr.inr => exact afterRead_keeps_mark hs
  all_goals exact hs

theorem issueCommand_keeps_mark (h : issueCommand c s = .next t) (hs : s.modelFault = true) : t.modelFault = true := by
  rcases issueCommand_cases h with ⟨_, _, hexec⟩ | rfl
  · exact exec_keeps_mark hexec hs
  · exact hs

/-- Settles O30: a window read without data sets the mark, a command keeps it, and every other event, reset too, leaves it. -/
theorem modelFaultMarkIsPermanent : Obligations.ModelFaultMarkIsPermanent := by
  unfold Obligations.ModelFaultMarkIsPermanent
  intro s t h hs
  rcases step_cases h with ⟨_, rfl⟩ | ⟨_, rest, _, hevent⟩
  · exact hs
  rcases hevent with ⟨_, rfl⟩ | ⟨_, _, rfl⟩ | ⟨_, _, _, _, rfl⟩ | ⟨_, _, _, _, _, _, _, rfl⟩ | ⟨_, u, _, hissue, rfl⟩ |
    ⟨r, w, _, _, rfl⟩ | ⟨_, _, _, _, _, _, _, rfl⟩
  · exact hs
  · exact hs
  · exact hs
  · rfl
  · exact issueCommand_keeps_mark (t := u) hissue hs
  · exact (writeCtl_modelFault _ r w).trans hs
  · exact hs

end Sys2Proof.Machine

/-!
SUPPORT. Reset (70_reset_and_hazards.md R310, R311): what the step of a reset answers, between transactions or during a command,
the reset value of every piece of state, and that a core just reset meets the invariant.
-/

namespace Sys2Proof.Machine

variable {s : State}

/-! ## The reset values -/

/-- A core with no key, no error and DIR = 0 reads STATUS as 0 (10_state.md R48). -/
theorem statusWord_eq_zero (hecode : s.ecode = .ok) (herr : s.err = false) (hdir : s.dir = .encrypt) (hkv : s.kv = false) :
    s.statusWord = 0 := by
  unfold State.statusWord
  rw [hecode, herr, hdir, hkv]
  rfl

/-- The two resets leave the same core (R310): they differ on the host's side only, in the responses given. -/
theorem step_of_pending_reset {e : HostEvent} {rest : List HostEvent} (hp : s.pending = e :: rest)
    (he : e = .reset ∨ ∃ c, e = .resetDuring c) :
    ∃ responses, step s = .next (s.applyReset.withHost rest responses) := by
  rw [step_of_pending_cons hp]
  rcases he with rfl | ⟨_, rfl⟩
  · exact ⟨s.responses, rfl⟩
  · exact ⟨s.responses ++ [.abandoned], rfl⟩

/-- Settles O38: either reset applies R311's values, and the host's side is none of what R311 lists. -/
theorem resetGivesResetValues : Obligations.ResetGivesResetValues := by
  unfold Obligations.ResetGivesResetValues
  intro s rest e hp he
  obtain ⟨responses, hstep⟩ := step_of_pending_reset hp he
  exact ⟨_, hstep, fun i => Vector.getElem_replicate i.isLt, rfl, rfl, rfl, rfl, rfl, rfl, rfl, rfl, rfl, rfl, fun _ => rfl,
    statusWord_eq_zero rfl rfl rfl rfl, rfl, rfl⟩

/-! ## The invariant -/

/-- A core just reset meets the invariant as soon as its parameters are legal: BUF lists no byte, there is no key and RK is
zeroised, and ECODE is 0. -/
theorem State.Inv.resetWith {c : Config} (hc : c.legal) : (State.resetWith c).Inv where
  legal := hc
  buf := ⟨wf_nil, List.forall_mem_nil _⟩
  key := ⟨fun hkv => absurd hkv Bool.false_ne_true, fun _ => ⟨rfl, rfl⟩⟩
  errors := .of_ok rfl

theorem legal_default : Config.default.legal := by decide

/-- Settles O40: the default BUF_BYTES is one of the legal ones. -/
theorem resetMeetsInvariant : Obligations.ResetMeetsInvariant := by
  unfold Obligations.ResetMeetsInvariant
  exact ⟨.resetWith legal_default, fun _ => .resetWith⟩

end Sys2Proof.Machine
